-- ==== Sys2Proof/Word.lean ====
section
/-! DEFINITION. The byte, the one unit of transfer of this hardware, and its wrapping arithmetic (00_scope.md section 7). -/

namespace Sys2Proof

/-- A byte: 8 bits, unsigned 0x00 to 0xFF (00_scope.md section 7). -/
abbrev Byte := BitVec 8

/-- `add8(a, b) = (a + b) mod 256`. -/
def add8 (a b : Byte) : Byte := a + b

/-- `sub8(a, b) = (a - b) mod 256`. -/
def sub8 (a b : Byte) : Byte := a - b

end Sys2Proof
end

