-- ==== Sys2Proof/Syntax.lean ====
section
/-! DEFINITION. The frame formats and the instructions: one constructor per row of spec/opcode_table.json. -/

namespace Sys2Proof

/-- Format CMD8, the command frame, with the spec's field names (R60). -/
structure CmdFrame where
  addr : Byte
  devid : Byte
  cmdCode : Byte
  p0 : Byte
  p1 : Byte
  p2 : Byte
  p3 : Byte
  p4 : Byte
deriving DecidableEq, Repr

/-- Format RSP9, the response frame, with the spec's field names (R64). -/
structure RspFrame where
  pre : Byte
  echo : Byte
  ppmHi : Byte
  ppmLo : Byte
  temp40 : Byte
  stat : Byte
  rsv0 : Byte
  rsv1 : Byte
  cks : Byte
deriving DecidableEq, Repr

/-- The Detection Range, four variants (R22). -/
inductive Range where
  | default | r2000 | r5000 | r10000
deriving DecidableEq, Repr

/-- The Boot Calibration Policy, three variants (R21). -/
inductive AbcPolicy where
  | unspecified | enabled | disabled
deriving DecidableEq, Repr

/-- The 19 rows of the opcode table. The `wire…` rows (format CMD9) are the exchanges of the eight command frames
(R70, R92); `rspGetReading` (format RSP9) is the nine bytes of a response the framer validates (R64, R113, R114);
the rest (format HOSTOP) are the operations the host requests (R80). -/
inductive Instr where
  | wireGetReading
  | wireRange5000
  | wireRange2000
  | wireRange10000
  | wireAbcEnable
  | wireAbcDisable
  | wireCalibrateZero
  | wireRecover
  | rspGetReading (r : RspFrame)
  | boot
  | tick
  | recover
  | calibrateZero
  | abcEnable
  | abcDisable
  | setRangeDefault
  | setRange2000
  | setRange5000
  | setRange10000
deriving DecidableEq, Repr

end Sys2Proof
end

