-- ==== Sys2Proof/Config.lean ====
section
/-! DEFINITION. What an implementation fixes (the OPEN parameters of R7) and the one free value of the model. -/

namespace Sys2Proof

/-- The OPEN parameters (R7, 92_eei_decisions.md "OPEN parameters, gathered"). A record of plain data that State carries
unchanged, so that a statement over all states is a statement for every value of every parameter. -/
structure Params where
  /-- `CMD_RECOVER` (R77) -/
  recover : CmdFrame
  /-- `CMD_CALIBRATE_ZERO` (R76) -/
  calibrateZero : CmdFrame
  /-- `CMD_ABC_ENABLE` (R75) -/
  abcEnable : CmdFrame
  /-- `CMD_ABC_DISABLE` (R75) -/
  abcDisable : CmdFrame
  /-- `CMD_RANGE_2000` (R73) -/
  range2000 : CmdFrame
  /-- `CMD_RANGE_10000` (R74) -/
  range10000 : CmdFrame
  /-- `BOOT_SENDS_RANGE` (R141) -/
  bootSendsRange : Bool
  /-- `TRANSPORT_BLOCKING` (R45) -/
  transportBlocking : Bool
  /-- `CLOCK_BITS` (R170) -/
  clockBits : Nat
deriving DecidableEq, Repr

/-- The draw behind `k`, the number of bytes a failed 9-byte read removes (R45, U2): a FREE VALUE. The n-th failed read
of a run uses the n-th value; nothing in Lean can evaluate it (log entry 9). -/
opaque Config.failedReadDraw : Nat → Nat

end Sys2Proof
end

