-- ==== Sys2Proof/WellFormed.lean ====
section
/-! DEFINITION. Which parameters and which instructions are well formed. -/

namespace Sys2Proof

/-- Bytes 0 and 1 of a command frame are the constants 0xFF, 0x01 (R63, R78 (a)). -/
def CmdFrame.wellFormed (f : CmdFrame) : Bool := f.addr == 0xFF#8 && f.devid == 0x01#8

/-- The preamble of a response: byte 0 is 0xFF, byte 1 the echoed command code 0x86 (R64, R113). -/
def RspFrame.hasPreamble (r : RspFrame) : Bool := r.pre == 0xFF#8 && r.echo == 0x86#8

/-- The only operand an instruction has is the response of `rspGetReading`; format RSP9 fixes its first two bytes (R64).
Its checksum is no part of the form: a response that fails it decodes and raises CHECKSUM (R68 class (2)). -/
def Instr.wellFormed : Instr → Bool
  | .rspGetReading r => r.hasPreamble
  | _ => true

end Sys2Proof
end

