-- ==== Sys2Proof/Machine/CommandTable.lean ====
section
/-! DEFINITION. The command table: the two frames the source fixes (R71, R72) and the defaults of the six parameter frames
(R73 to R77). -/

namespace Sys2Proof.Machine

/-- `CMD_GET_READING` = FF 01 86 00 00 00 00 00 (R71). -/
def getReadingFrame : CmdFrame := ⟨0xFF, 0x01, 0x86, 0x00, 0x00, 0x00, 0x00, 0x00⟩

/-- `CMD_RANGE_5000` = FF 01 99 00 00 00 13 88 (R72). -/
def range5000Frame : CmdFrame := ⟨0xFF, 0x01, 0x99, 0x00, 0x00, 0x00, 0x13, 0x88⟩

/-- The parameters at the spec's defaults: the frames of R73 to R77 (PRESUMED, G1 to G6, log entry 6),
`BOOT_SENDS_RANGE` and `TRANSPORT_BLOCKING` false, `CLOCK_BITS` 32 (R7; log entries 5, 7, 8). -/
def defaultParams : Params where
  recover := ⟨0xFF, 0x01, 0x78, 0x00, 0x00, 0x00, 0x00, 0x00⟩
  calibrateZero := ⟨0xFF, 0x01, 0x87, 0x00, 0x00, 0x00, 0x00, 0x00⟩
  abcEnable := ⟨0xFF, 0x01, 0x79, 0xA0, 0x00, 0x00, 0x00, 0x00⟩
  abcDisable := ⟨0xFF, 0x01, 0x79, 0x00, 0x00, 0x00, 0x00, 0x00⟩
  range2000 := ⟨0xFF, 0x01, 0x99, 0x00, 0x00, 0x00, 0x07, 0xD0⟩
  range10000 := ⟨0xFF, 0x01, 0x99, 0x00, 0x00, 0x00, 0x27, 0x10⟩
  bootSendsRange := false
  transportBlocking := false
  clockBits := 32

/-- The constraints of R78 on the six parameter frames: constant bytes 0 and 1, three different range frames, two
different ABC frames. -/
def paramsWellFormed (p : Params) : Bool :=
  p.recover.wellFormed && p.calibrateZero.wellFormed && p.abcEnable.wellFormed && p.abcDisable.wellFormed
    && p.range2000.wellFormed && p.range10000.wellFormed
    && p.range2000 != range5000Frame && p.range10000 != range5000Frame && p.range2000 != p.range10000
    && p.abcEnable != p.abcDisable

/-- The eight frames of the command table are pairwise different. R78 does NOT require this; decoding a wire frame to the
row that stands for it needs it (log entry 24). -/
def framesDistinct (p : Params) : Bool :=
  decide [getReadingFrame, range5000Frame, p.range2000, p.range10000, p.abcEnable, p.abcDisable, p.calibrateZero,
    p.recover].Nodup

end Sys2Proof.Machine
end

