-- ==== Sys2Proof/Machine/State.lean ====
section
/-! DEFINITION. The machine's state as plain data, its reset value, its faults and refusals. -/

namespace Sys2Proof.Machine

/-- The values of the sequencer register `PHASE` (R14). -/
inductive Phase where
  | idle | gate | drain | tx | flush | rxWait | chkPre | chkSum | latch
deriving DecidableEq, Repr

/-- The values of the register `OP` (R17). -/
inductive Op where
  | boot | tick | recover | calibrateZero | abcEnable | abcDisable
  | setRange (r : Range)
deriving DecidableEq, Repr

/-- The cause register `WCAUSE` (R25): NONE and the four warning conditions (R150 to R153). -/
inductive Cause where
  | none | warmup | transport | preamble | checksum
deriving DecidableEq, Repr

/-- The result of SendCommand (R92). -/
inductive SendResult where
  | ok | fail
deriving DecidableEq, Repr

/-- The configuration registers (R19 to R23). -/
structure Configuration where
  /-- `WARMUP_S` (R20) -/
  warmupS : BitVec 32
  /-- `ABC_BOOT` (R21) -/
  abcBoot : AbcPolicy
  /-- `RANGE` (R22) -/
  range : Range
  /-- `CO2_SINK_EN` (R23) -/
  co2SinkEn : Bool
  /-- `TEMP_SINK_EN` (R23) -/
  tempSinkEn : Bool
deriving DecidableEq, Repr

/-- A publish event `CO2_PUB` or `TEMP_PUB` with the value handed to the sink (R30, R116). -/
inductive Publish where
  | co2 (v : BitVec 16)
  | temp (v : BitVec 16)
deriving DecidableEq, Repr

/-- A transport primitive the framer performed (R40, R53), with the bytes it moved. -/
inductive Act where
  /-- `RxPop()` returned `b` (R42) -/
  | pop (b : Byte)
  /-- `TxPush(b)` (R46) -/
  | push (b : Byte)
  /-- `TxFlush()` returned (R47) -/
  | flush
  /-- `RxRead9() = Ok(r)` (R45) -/
  | readOk (r : RspFrame)
  /-- `RxRead9() = Fail`, the bytes `bs` removed (R45) -/
  | readFail (bs : List Byte)
deriving DecidableEq, Repr

/-- A move the environment, or the host's clock, may make between any two steps of the framer (R9, R41, R54, R170). -/
inductive EnvMove where
  /-- bytes arrive at the tail of RXQ (R42; script line `RX`, R81) -/
  | rx (bs : List Byte)
  /-- the oldest byte of TX_PENDING leaves to WIRE (R46) -/
  | sent
  /-- these bytes will arrive when the next flush returns (script line `RX_ON_REQUEST`, R81) -/
  | replyOnFlush (bs : List Byte)
  /-- the transport gives up the next `RxRead9` if fewer than nine bytes are there (R45; `RX_TIMEOUT`, R81) -/
  | giveUp
  /-- the host's clock advances by `d` milliseconds (R170; `CLOCK`, R81) -/
  | advance (d : Nat)
deriving DecidableEq, Repr

/-- A move of the host or of the environment: one line of a script (R81). -/
inductive Move where
  /-- the environment, or the clock, moves -/
  | env (m : EnvMove)
  /-- the host requests an operation on the ports `op_code`, `op_range` (R36, R80) -/
  | request (code : BitVec 4) (range : BitVec 2)
  /-- the host writes the configuration registers (R19; script line `CONFIG`) -/
  | config (c : Configuration)
  /-- the host resets the framer (R180, R182) -/
  | reset
deriving DecidableEq, Repr

/-- An entry of the agenda: who moves next is plain data (log entry 3). -/
inductive Event where
  /-- a line of a script: taken when the framer is IDLE or has no step to take, since "the framer's steps between two host
  lines run to completion" (R81) -/
  | line (m : Move)
  /-- a move taken at once, whatever the framer is doing (R44, R54, R182) -/
  | now (m : Move)
  /-- the machine takes one step of its own here, before the next entry (R54) -/
  | turn
deriving DecidableEq, Repr

/-- The whole state. The spec's registers first, then the state the framer touches but does not own, then the model's own
fields. An `Option` register holds "no value" when `none`, the spec's own reset value (R35, log entry 2). -/
structure State where
  /-- `PHASE` (R14) -/
  phase : Phase
  /-- `OP` (R17) -/
  op : Option Op
  /-- `CMD[0..7]` (R11) -/
  cmd : Option CmdFrame
  /-- `RSP[0..8]` (R12) -/
  rsp : Option RspFrame
  /-- `CSUM` (R13) -/
  csum : Option Byte
  /-- `BCNT` (R15) -/
  bcnt : Option (BitVec 4)
  /-- `EXPECT` (R16) -/
  expect : Option Bool
  /-- `BOOT_DONE` (R18) -/
  bootDone : Bool
  /-- the configuration registers (R19 to R23) -/
  cfg : Configuration
  /-- the implementation's parameters, constant for the run (R7) -/
  params : Params
  /-- `WARNING` (R24) -/
  warning : Bool
  /-- `WCAUSE` (R25) -/
  wcause : Cause
  /-- `CO2` (R26) -/
  co2 : Option (BitVec 16)
  /-- `TEMP`, two's complement (R27) -/
  temp : Option (BitVec 16)
  /-- `STATUS` (R28) -/
  status : Option Byte
  /-- `CS_CALC` (R29) -/
  csCalc : Option Byte
  /-- `CS_RECV` (R29) -/
  csRecv : Option Byte
  /-- the publish events `CO2_PUB`, `TEMP_PUB` since reset, oldest first (R30) -/
  pubs : List Publish
  /-- `NOW_MS` (R31, R170) -/
  nowMs : Nat
  /-- `RXQ`, oldest byte first (R42) -/
  rxq : List Byte
  /-- `TX_PENDING`, oldest byte first (R46) -/
  txPending : List Byte
  /-- `WIRE`, first byte sent first (R46) -/
  wire : List Byte
  /-- model: the result of SendCommand, until the step in which its caller takes it (R92, log entry 18) -/
  ret : Option SendResult
  /-- model: BOOT still has its range part to do (R141, log entry 18) -/
  rangeLeft : Bool
  /-- model: the bytes that arrive when the next flush returns (R81, log entry 20) -/
  onFlush : List Byte
  /-- model: the transport gives up the next short read (R45, log entry 20) -/
  giveUp : Bool
  /-- model: the transmit lower layer never empties by itself (R47, log entry 4) -/
  stalls : Bool
  /-- model: the environment keeps RXQ non-empty with this byte while the framer drains (R93 (c), log entry 23) -/
  floods : Option Byte
  /-- model: how many values of the free value `Config.failedReadDraw` are used up (log entry 9) -/
  draws : Nat
  /-- model: the moves of host and environment still to come (log entry 3) -/
  agenda : List Event
  /-- model: the transport primitives performed since reset, oldest first (log entry 18) -/
  acts : List Act
deriving DecidableEq, Repr

/-- The transient registers whose absence a phase can meet. -/
inductive Transient where
  | cmd | rsp | csum | bcnt | expect
deriving DecidableEq, Repr

/-- Why the machine stops with a fault. The spec's own four conditions are warnings, none fatal (R154). -/
inductive Fault where
  /-- A phase reads a transient register that holds no value (U3: "no rule of this spec makes such a read"). Raised by
  the step of a phase (Ops.lean, Sequencer.lean) in states no run reaches. Safe. -/
  | noValue (r : Transient)
deriving DecidableEq, Repr

/-- Why a step has no meaning. -/
inductive Refusal where
  /-- An instruction without a meaning yet. No arm of exec uses it now. Safe. -/
  | notModelled (mnemonic : String)
  /-- TICK at or beyond the bounds `NOW_MS < 2^CLOCK_BITS`, `WARMUP_S * 1000 < 2^CLOCK_BITS`, where the behaviour is
  unspecified (R170, U6). Raised by the warm-up gate of TICK. Safe. -/
  | clockOutOfRange
  /-- The host writes the configuration after the BOOT request or while an operation runs; it has no such move
  (R19, U9). Raised by the step that takes the move. Safe. -/
  | configNotWritable
deriving DecidableEq, Repr

/-- The configuration before the host writes it: DESIGN CHOICE, log entry 10. -/
def resetConfiguration : Configuration where
  warmupS := 0
  abcBoot := .unspecified
  range := .default
  co2SinkEn := false
  tempSinkEn := false

/-- The machine right after reset: the table of R35. The configuration (log entry 10), RXQ (log entry 11) and the model's
own fields (log entry 18) hold values the log names. -/
def State.reset : State where
  phase := .idle
  op := none
  cmd := none
  rsp := none
  csum := none
  bcnt := none
  expect := none
  bootDone := false
  cfg := resetConfiguration
  params := defaultParams
  warning := false
  wcause := .none
  co2 := none
  temp := none
  status := none
  csCalc := none
  csRecv := none
  pubs := []
  nowMs := 0
  rxq := []
  txPending := []
  wire := []
  ret := none
  rangeLeft := false
  onFlush := []
  giveUp := false
  stalls := false
  floods := none
  draws := 0
  agenda := []
  acts := []

end Sys2Proof.Machine
end

