-- ==== Sys2Proof/Machine/Flags.lean ====
section
/-! DEFINITION. The framer's only flag, `WARNING`, with its cause register `WCAUSE`: always written together (R24, R25). -/

namespace Sys2Proof.Machine

/-- Set the warning with the code of its cause (R25, R156). -/
def setWarning (c : Cause) (s : State) : State := { s with warning := true, wcause := c }

/-- Clear the warning; the cause becomes NONE (R115, R157). -/
def clearWarning (s : State) : State := { s with warning := false, wcause := .none }

/-- The code of a cause: 0 NONE, 1 WARMUP, 2 TRANSPORT, 3 PREAMBLE, 4 CHECKSUM (R25). -/
def causeCode : Cause → BitVec 3
  | .none => 0
  | .warmup => 1
  | .transport => 2
  | .preamble => 3
  | .checksum => 4

end Sys2Proof.Machine
end

