-- ==== Sys2Proof/Machine/Frames.lean ====
section
/-! DEFINITION. Frames as bytes in index order (R48) and the checksum function (R90). -/

namespace Sys2Proof.Machine

/-- The eight bytes of a command frame, byte 0 first (R48, R60). -/
def cmdBytes (f : CmdFrame) : List Byte :=
  [f.addr, f.devid, f.cmdCode, f.p0, f.p1, f.p2, f.p3, f.p4]

/-- The nine bytes of a response frame, byte 0 first (R48, R64). -/
def rspBytes (r : RspFrame) : List Byte :=
  [r.pre, r.echo, r.ppmHi, r.ppmLo, r.temp40, r.stat, r.rsv0, r.rsv1, r.cks]

/-- The nine oldest bytes of a queue as a response frame with the rest of the queue, `none` when there are fewer than
nine (R45, R48). -/
def takeResponse : List Byte → Option (RspFrame × List Byte)
  | b0 :: b1 :: b2 :: b3 :: b4 :: b5 :: b6 :: b7 :: b8 :: rest => some (⟨b0, b1, b2, b3, b4, b5, b6, b7, b8⟩, rest)
  | _ => none

/-- Exactly eight bytes as a command frame. -/
def cmdOfBytes : List Byte → Option CmdFrame
  | [b0, b1, b2, b3, b4, b5, b6, b7] => some ⟨b0, b1, b2, b3, b4, b5, b6, b7⟩
  | _ => none

/-- The truncated sum of bytes 1 to 7, "computed with 8-bit wraparound at each step"; byte 0 and byte 8 are ignored
(R90). -/
def checksumSum (F : List Byte) : Byte := ((F.drop 1).take 7).foldl add8 0x00#8

/-- `(0xFF - s) + 1`, wrapping (R90, 90_conflicts.md C1). -/
def checksumOfSum (s : Byte) : Byte := add8 (sub8 0xFF#8 s) 0x01#8

/-- `Checksum(F)` of an array of at least eight bytes (R90). -/
def checksum (F : List Byte) : Byte := checksumOfSum (checksumSum F)

/-- Format CMD9: a command frame followed by its checksum (R61). -/
def wireFrame (f : CmdFrame) : List Byte := cmdBytes f ++ [checksum (cmdBytes f)]

/-- The checksum test of a response: `RSP[8] = Checksum(RSP)`, all eight bits (R114). -/
def checksumMatches (r : RspFrame) : Bool := r.cks == checksum (rspBytes r)

end Sys2Proof.Machine
end

