-- ==== Sys2Proof/Machine/Operands.lean ====
section
/-! DEFINITION. The fields of a response as values, and the operand of SET_RANGE as the frame it sends. -/

namespace Sys2Proof.Machine

/-- `co2 = RSP[2] * 256 + RSP[3]`, big-endian, 0 to 65535 (R49, R65). -/
def co2Value (r : RspFrame) : Nat := r.ppmHi.toNat * 256 + r.ppmLo.toNat

/-- `temp = RSP[4] - 40`, the byte taken unsigned: -40 to 215 (R65). -/
def tempValue (r : RspFrame) : Int := (r.temp40.toNat : Int) - 40

/-- `zext_16` of the concentration, the value of the `CO2` register (R26, R116). -/
def co2Word (r : RspFrame) : BitVec 16 := BitVec.ofNat 16 (co2Value r)

/-- `sext_16` of the temperature, the value of the `TEMP` register (R27, R116). -/
def tempWord (r : RspFrame) : BitVec 16 := BitVec.ofInt 16 (tempValue r)

/-- The frame a range selects; "default" has none (R135 to R138). The match is exhaustive. -/
def rangeFrame (p : Params) : Range → Option CmdFrame
  | .default => none
  | .r2000 => some p.range2000
  | .r5000 => some range5000Frame
  | .r10000 => some p.range10000

/-- The codes of RANGE on two bits (R22). -/
def rangeCode : Range → BitVec 2
  | .default => 0
  | .r2000 => 1
  | .r5000 => 2
  | .r10000 => 3

/-- The codes of ABC_BOOT on two bits (R21). -/
def abcCode : AbcPolicy → BitVec 2
  | .unspecified => 0
  | .enabled => 1
  | .disabled => 2

/-- What a register-level implementation reads from the two bits of ABC_BOOT: 3 is treated as unspecified (R21, U8). -/
def abcOfCode (c : BitVec 2) : AbcPolicy :=
  if c = 1 then .enabled else if c = 2 then .disabled else .unspecified

/-- What the two bits of RANGE or of the port `op_range` select (R22, R80). -/
def rangeOfCode (c : BitVec 2) : Range :=
  if c = 0 then .default else if c = 1 then .r2000 else if c = 2 then .r5000 else .r10000

end Sys2Proof.Machine
end

