-- ==== Sys2Proof/Machine/Ops.lean ====
section
/-! DEFINITION. The shared operations: the environment's moves, the transport primitives, the steps of the exchange
SendCommand, the beginning and the end of an operation, the entry of a warning condition, and reset. -/

namespace Sys2Proof.Machine

/-- One move of the environment or of the clock (R42, R46, R81, R170). A byte can leave only if one is pending. -/
def envMove (m : EnvMove) (s : State) : State :=
  match m with
  | .rx bs => { s with rxq := s.rxq ++ bs }
  | .sent =>
    match s.txPending with
    | [] => s
    | b :: rest => { s with txPending := rest, wire := s.wire ++ [b] }
  | .replyOnFlush bs => { s with onFlush := s.onFlush ++ bs }
  | .giveUp => { s with giveUp := true }
  | .advance d => { s with nowMs := s.nowMs + d }

/-! ### The transport primitives -/

/-- `RxPop()` of the byte `b` at the head of RXQ, leaving `rest` (R42, R43). -/
def popByte (b : Byte) (rest : List Byte) (s : State) : State :=
  { s with rxq := rest, acts := s.acts ++ [.pop b] }

/-- `TxPush(b)`: always enabled, never fails (R46). -/
def pushByte (b : Byte) (s : State) : State :=
  { s with txPending := s.txPending ++ [b], acts := s.acts ++ [.push b] }

/-- `TxFlush()` returns; `RX_ON_REQUEST` bytes arrive at that moment (R47, R81, log entry 20). -/
def flushReturns (s : State) : State :=
  { s with rxq := s.rxq ++ s.onFlush, onFlush := [], acts := s.acts ++ [.flush] }

/-- `RxRead9() = Ok(r)`: the nine oldest bytes leave RXQ for RSP, `rest` stays (R45, R97). -/
def readTakes (r : RspFrame) (rest : List Byte) (s : State) : State :=
  { s with rxq := rest, rsp := some r, ret := some .ok, giveUp := false, acts := s.acts ++ [.readOk r] }

/-- The number `k` of bytes a failing read removes, 0 to all: the next draw of the free value (R45, U2, log entry 9). -/
def failedReadCount (s : State) : Nat := Config.failedReadDraw s.draws % (s.rxq.length + 1)

/-- `RxRead9() = Fail`: `k` bytes leave RXQ; RSP holds no value (R45, R97). -/
def readFails (s : State) : State :=
  { s with rxq := s.rxq.drop (failedReadCount s), rsp := none, ret := some .fail, giveUp := false, draws := s.draws + 1,
           acts := s.acts ++ [.readFail (s.rxq.take (failedReadCount s))] }

/-- The next entry of the agenda is a move of the environment or of the clock. -/
def moveAhead (s : State) : Bool :=
  match s.agenda with
  | .line (.env _) :: _ => true
  | .now (.env _) :: _ => true
  | _ => false

/-- A short read would still wait: the transport blocks for ever, or it has not given up and a move of the environment is
ahead (R45, log entry 20). -/
def readWaits (s : State) : Bool := s.params.transportBlocking || (!s.giveUp && moveAhead s)

/-! ### The exchange -/

/-- The beginning of `SendCommand(F, expect)`: latch CMD and EXPECT, enter DRAIN (R92). It does not look at `F` (R99). -/
def startExchange (f : CmdFrame) (e : Bool) (s : State) : State :=
  { s with phase := .drain, cmd := some f, expect := some e, bcnt := none, csum := none, ret := none }

/-- A step of phase DRAIN (R93): while `RxAvail() > 0` pop one byte and stay; else go on to TX, with BCNT 0 (R15) and CSUM
cleared (R13). -/
def drainStep (s : State) : State :=
  match s.rxq with
  | b :: rest => popByte b rest s
  | [] => { s with phase := .tx, bcnt := some 0, csum := some 0 }

/-- A step of phase TX (R94): push `CMD[i]`, the running sum in CSUM (R13, R90; byte 0 not summed), or, when the eight bytes
are out, the checksum, and go on to FLUSH. -/
def txStep (f : CmdFrame) (i : BitVec 4) (c : Byte) (s : State) : State :=
  match (cmdBytes f)[i.toNat]? with
  | some b => { pushByte b s with bcnt := some (i + 1), csum := some (if i = 0 then c else add8 c b) }
  | none => { pushByte (checksumOfSum c) s with phase := .flush, bcnt := none, csum := none }

/-- A step of phase FLUSH (R95, R47): `TxFlush()` returns exactly when TX_PENDING is empty; then, with no response expected,
the result is OK (R96), else the read begins. -/
def flushStep (e : Bool) (s : State) : State :=
  if s.txPending = [] then
    if e then { flushReturns s with phase := .rxWait } else { flushReturns s with ret := some .ok }
  else s

/-- A step of phase RXWAIT (R97): the transport's answer to `RxRead9()`, if it has one (R45). -/
def readStep (s : State) : State :=
  match takeResponse s.rxq with
  | some (r, rest) => readTakes r rest s
  | none => if readWaits s then s else readFails s

/-- One step of the exchange of the frame `f`: at most one transport primitive (R8, D1). -/
def exchangeStep (f : CmdFrame) (e : Bool) (s : State) : Host.Outcome State Fault Refusal :=
  match s.phase with
  | .drain => .next (drainStep s)
  | .tx =>
    match s.bcnt, s.csum with
    | some i, some c => .next (txStep f i c s)
    | none, _ => .fault (.noValue .bcnt)
    | _, none => .fault (.noValue .csum)
  | .flush => .next (flushStep e s)
  | .rxWait => .next (readStep s)
  | _ => .next s

/-- The phases of an exchange. -/
def exchanging (p : Phase) : Bool := p == .drain || p == .tx || p == .flush || p == .rxWait

/-- The exchange of the frame `f` is under way: it has begun and has not returned. -/
def underWay (f : CmdFrame) (e : Bool) (s : State) : Bool :=
  exchanging s.phase && s.cmd == some f && s.expect == some e && s.ret == none

/-- `SendCommand(F, expect)` (R92), one step of it: its beginning, or the next step of the exchange under way. `ret` is its
result; while it is `none` the exchange is not over. It writes no flag (R98). -/
def sendCommand (f : CmdFrame) (e : Bool) (s : State) : Host.Outcome State Fault Refusal :=
  if underWay f e s then exchangeStep f e s else .next (startExchange f e s)

/-! ### Operations -/

/-- The end of an operation: PHASE is IDLE and no transient register holds a value (R11 to R17; log entry 19). -/
def finish (s : State) : State :=
  { s with phase := .idle, op := none, cmd := none, rsp := none, csum := none, bcnt := none, expect := none, ret := none,
           rangeLeft := false }

/-- The beginning of an operation: OP is latched (R17), the other transient registers hold no value (R11 to R16). -/
def beginOp (o : Op) (s : State) : State := { finish s with op := some o }

/-- `warn X`, the one entry sequence of the four warning conditions (R156): WARNING 1, WCAUSE the code, PHASE IDLE.
Nothing is saved and there is no return (R156, R157). -/
def warn (c : Cause) (s : State) : State := finish (setWarning c s)

/-- The framer takes TICK and the on-demand commands: PHASE is IDLE and BOOT is done (R142). -/
def ready (s : State) : Bool := s.phase == .idle && s.bootDone

/-- The framer takes BOOT: PHASE is IDLE and BOOT is not done (R140, R142). -/
def bootable (s : State) : Bool := s.phase == .idle && !s.bootDone

/-- Reset (R180, R182): every register at its value of R35; what the framer does not own stays: RXQ, TX_PENDING, WIRE
(R182), the transport's disposition, and the moves still to come. NOW_MS counts from the reset (R170). -/
def resetFramer (s : State) : State :=
  { State.reset with
    params := s.params, rxq := s.rxq, txPending := s.txPending, wire := s.wire, onFlush := s.onFlush, giveUp := s.giveUp,
    stalls := s.stalls, floods := s.floods, draws := s.draws, agenda := s.agenda }

end Sys2Proof.Machine
end

