-- ==== Sys2Proof/Machine/CommandSet.lean ====
section
/-! DEFINITION. The Command Set: the on-demand commands (R130 to R138) and BOOT (R140, R141). -/

namespace Sys2Proof.Machine

/-- An on-demand command: latch OP, begin the exchange with no response expected (R130). Requested before BOOT or during an
operation it is ignored (R142, log entry 12). The clock is not read (R139). -/
def command (o : Op) (f : CmdFrame) (s : State) : State :=
  if ready s then startExchange f false (beginOp o s) else s

/-- RECOVER (R131). -/
def execRecover (s : State) : Host.Outcome State Fault Refusal := .next (command .recover s.params.recover s)

/-- CALIBRATE_ZERO (R132). -/
def execCalibrateZero (s : State) : Host.Outcome State Fault Refusal :=
  .next (command .calibrateZero s.params.calibrateZero s)

/-- ABC_ENABLE (R133). -/
def execAbcEnable (s : State) : Host.Outcome State Fault Refusal := .next (command .abcEnable s.params.abcEnable s)

/-- ABC_DISABLE (R134). -/
def execAbcDisable (s : State) : Host.Outcome State Fault Refusal := .next (command .abcDisable s.params.abcDisable s)

/-- SET_RANGE default: no command is sent, nothing is drained, no state changes (R138). -/
def execSetRangeDefault (s : State) : Host.Outcome State Fault Refusal := .next s

/-- SET_RANGE 2000 (R135). -/
def execSetRange2000 (s : State) : Host.Outcome State Fault Refusal :=
  .next (command (.setRange .r2000) s.params.range2000 s)

/-- SET_RANGE 5000 (R136). -/
def execSetRange5000 (s : State) : Host.Outcome State Fault Refusal :=
  .next (command (.setRange .r5000) range5000Frame s)

/-- SET_RANGE 10000 (R137). -/
def execSetRange10000 (s : State) : Host.Outcome State Fault Refusal :=
  .next (command (.setRange .r10000) s.params.range10000 s)

/-- The end of BOOT: `BOOT_DONE <- 1`, PHASE IDLE (R140). -/
def bootEnd (s : State) : State := finish { s with bootDone := true }

/-- After the ABC part of BOOT: SET_RANGE RANGE when BOOT_SENDS_RANGE, nothing for "default" (R141). When the ABC part was an
exchange, PHASE goes from FLUSH to DRAIN, a second exchange inside one BOOT, without IDLE between: R141 needs that exchange, the
table of R14 has no such transition and the spec does not say how the two agree. DESIGN CHOICE, log entry 30. -/
def bootRange (s : State) : State :=
  if s.rangeLeft then
    match rangeFrame s.params s.cfg.range with
    | none => bootEnd s
    | some f => startExchange f false { s with rangeLeft := false }
  else bootEnd s

/-- BOOT (R140): the ABC command the policy names, then the range part, then BOOT_DONE. A second BOOT, or one during an
operation, is ignored (R142, log entry 12). -/
def execBoot (s : State) : Host.Outcome State Fault Refusal :=
  if bootable s then
    let s1 := { beginOp .boot s with rangeLeft := s.params.bootSendsRange }
    match s.cfg.abcBoot with
    | .enabled => .next (startExchange s.params.abcEnable false s1)
    | .disabled => .next (startExchange s.params.abcDisable false s1)
    | .unspecified => .next (bootRange s1)
  else .next s

end Sys2Proof.Machine
end

