-- ==== Sys2Proof/Machine/FrameCodec.lean ====
section
/-! DEFINITION. The Frame Codec's instructions: the exchange of each of the eight command frames (R69 to R77, R92), one step at
a time (R8, log entry 14). Only get reading expects a response (R16, R67). -/

namespace Sys2Proof.Machine

/-- WIRE_GET_READING: SendCommand(CMD_GET_READING, 1) (R71, R92, R112). -/
def execWireGetReading (s : State) : Host.Outcome State Fault Refusal := sendCommand getReadingFrame true s

/-- WIRE_RANGE_5000: SendCommand(CMD_RANGE_5000, 0) (R72, R92). -/
def execWireRange5000 (s : State) : Host.Outcome State Fault Refusal := sendCommand range5000Frame false s

/-- WIRE_RANGE_2000: SendCommand(CMD_RANGE_2000, 0) (R73, R92). -/
def execWireRange2000 (s : State) : Host.Outcome State Fault Refusal := sendCommand s.params.range2000 false s

/-- WIRE_RANGE_10000: SendCommand(CMD_RANGE_10000, 0) (R74, R92). -/
def execWireRange10000 (s : State) : Host.Outcome State Fault Refusal := sendCommand s.params.range10000 false s

/-- WIRE_ABC_ENABLE: SendCommand(CMD_ABC_ENABLE, 0) (R75, R92). -/
def execWireAbcEnable (s : State) : Host.Outcome State Fault Refusal := sendCommand s.params.abcEnable false s

/-- WIRE_ABC_DISABLE: SendCommand(CMD_ABC_DISABLE, 0) (R75, R92). -/
def execWireAbcDisable (s : State) : Host.Outcome State Fault Refusal := sendCommand s.params.abcDisable false s

/-- WIRE_CALIBRATE_ZERO: SendCommand(CMD_CALIBRATE_ZERO, 0) (R76, R92). -/
def execWireCalibrateZero (s : State) : Host.Outcome State Fault Refusal :=
  sendCommand s.params.calibrateZero false s

/-- WIRE_RECOVER: SendCommand(CMD_RECOVER, 0) (R77, R92). -/
def execWireRecover (s : State) : Host.Outcome State Fault Refusal := sendCommand s.params.recover false s

end Sys2Proof.Machine
end

