-- ==== Sys2Proof/Machine/PollCycle.lean ====
section
/-! DEFINITION. The Poll Cycle: the response frame (validator and extractor, R113 to R116) and TICK (R110). -/

namespace Sys2Proof.Machine

/-- `publish CO2 v` (R116): only when the sink is configured; otherwise the value is dropped, no error. -/
def publishCo2 (v : BitVec 16) (s : State) : State :=
  if s.cfg.co2SinkEn then { s with co2 := some v, pubs := s.pubs ++ [.co2 v] } else s

/-- `publish TEMP v` (R116). -/
def publishTemp (v : BitVec 16) (s : State) : State :=
  if s.cfg.tempSinkEn then { s with temp := some v, pubs := s.pubs ++ [.temp v] } else s

/-- Phase LATCH: clear the warning, latch STATUS, publish CO2 and then TEMP, in one step (R115, R116). -/
def latch (r : RspFrame) (s : State) : State :=
  finish (publishTemp (tempWord r) (publishCo2 (co2Word r) { clearWarning s with status := some r.stat }))

/-- Phase CHK_SUM: compare byte 8 with the checksum of bytes 1 to 7; a mismatch records both values (R114, R29). -/
def checkSum (r : RspFrame) (s : State) : State :=
  if checksumMatches r then latch r { s with phase := .latch }
  else warn .checksum { s with csCalc := some (checksum (rspBytes r)), csRecv := some r.cks }

/-- Phase CHK_PRE: bytes 0 and 1 must be FF 86; on a mismatch the checksum is not looked at (R113). -/
def checkPreamble (r : RspFrame) (s : State) : State :=
  if r.hasPreamble then checkSum r { s with phase := .chkSum } else warn .preamble s

/-- RSP_GET_READING: nine bytes in RSP, validated, extracted and published (R64, R68, R113 to R116). -/
def execRspGetReading (r : RspFrame) (s : State) : Host.Outcome State Fault Refusal :=
  .next (checkPreamble r { s with phase := .chkPre, rsp := some r })

/-- What TICK does when SendCommand has returned `x` (R112): a failed read raises TRANSPORT; else the response is to be
validated. -/
def tickReturned (x : SendResult) (s : State) : State :=
  match x with
  | .fail => warn .transport s
  | .ok => { s with phase := .chkPre, ret := none }

/-- The bounds within which the rules of the clock hold (R170, U6). -/
def clockInRange (s : State) : Bool :=
  decide (s.nowMs < 2 ^ s.params.clockBits) && decide (s.cfg.warmupS.toNat * 1000 < 2 ^ s.params.clockBits)

/-- `NowMs() < WARMUP_S * 1000`, the product not truncated (R111). -/
def inWarmup (s : State) : Bool := decide (s.nowMs < s.cfg.warmupS.toNat * 1000)

/-- Phase GATE (R111, R112): the clock is read once; in the window nothing is sent and WARMUP is raised, else the exchange
begins. -/
def tickGate (s : State) : Host.Outcome State Fault Refusal :=
  if clockInRange s then
    if inWarmup s then .next (warn .warmup s) else .next (startExchange getReadingFrame true s)
  else .refused .clockOutOfRange

/-- TICK (R110): begin, and pass the gate in the same step, an internal one (R8). Requested before BOOT or during an operation
it is ignored (R142, log entry 12). -/
def execTick (s : State) : Host.Outcome State Fault Refusal :=
  if ready s then tickGate { beginOp .tick s with phase := .gate } else .next s

end Sys2Proof.Machine
end

