-- ==== Sys2Proof/Machine/Dispatch.lean ====
section
/-! DEFINITION. One arm per instruction of the opcode table. -/

namespace Sys2Proof.Machine

def exec (i : Instr) (s : State) : Host.Outcome State Fault Refusal :=
  match i with
  | .wireGetReading => Sys2Proof.Machine.execWireGetReading s
  | .wireRange5000 => Sys2Proof.Machine.execWireRange5000 s
  | .wireRange2000 => Sys2Proof.Machine.execWireRange2000 s
  | .wireRange10000 => Sys2Proof.Machine.execWireRange10000 s
  | .wireAbcEnable => Sys2Proof.Machine.execWireAbcEnable s
  | .wireAbcDisable => Sys2Proof.Machine.execWireAbcDisable s
  | .wireCalibrateZero => Sys2Proof.Machine.execWireCalibrateZero s
  | .wireRecover => Sys2Proof.Machine.execWireRecover s
  | .rspGetReading r => Sys2Proof.Machine.execRspGetReading r s
  | .boot => Sys2Proof.Machine.execBoot s
  | .tick => Sys2Proof.Machine.execTick s
  | .recover => Sys2Proof.Machine.execRecover s
  | .calibrateZero => Sys2Proof.Machine.execCalibrateZero s
  | .abcEnable => Sys2Proof.Machine.execAbcEnable s
  | .abcDisable => Sys2Proof.Machine.execAbcDisable s
  | .setRangeDefault => Sys2Proof.Machine.execSetRangeDefault s
  | .setRange2000 => Sys2Proof.Machine.execSetRange2000 s
  | .setRange5000 => Sys2Proof.Machine.execSetRange5000 s
  | .setRange10000 => Sys2Proof.Machine.execSetRange10000 s

end Sys2Proof.Machine
end

