-- ==== Sys2Proof/Decode.lean ====
section
/-! DEFINITION. Decoding of operation words and frames, total on any bytes and rejecting by name; then the encoder. -/

namespace Sys2Proof

open Machine

/-- Why bytes are no instruction. -/
inductive Reject where
  /-- neither one byte (an operation word) nor nine (a frame): every frame has a fixed length (R79) -/
  | noSuchLength
  /-- an operation word has six bits (R80); bits 7:6 of the byte are not zero -/
  | bitsAboveWord
  /-- `op_code` 0x7 to 0xF: no operation (R80, R142) -/
  | noSuchOperation
  /-- nine bytes that are neither one of the eight wire frames (R69) nor begin with the preamble FF 86 (R68 class (1)) -/
  | noSuchFrame
deriving DecidableEq, Repr

/-- An operation request as the ports `op_code` and `op_range` carry it (R36, R80). `op_range` is read by SET_RANGE only. -/
def decodeRequest (code : BitVec 4) (range : BitVec 2) : Except Reject Instr :=
  match code.toNat with
  | 0 => .ok .boot
  | 1 => .ok .tick
  | 2 => .ok .recover
  | 3 => .ok .calibrateZero
  | 4 => .ok .abcEnable
  | 5 => .ok .abcDisable
  | 6 =>
    match range.toNat with
    | 0 => .ok .setRangeDefault
    | 1 => .ok .setRange2000
    | 2 => .ok .setRange5000
    | _ => .ok .setRange10000
  | _ => .error .noSuchOperation

/-- The wire frames of the table, each with the row it stands for (R70 to R77). -/
def wireTable (p : Params) : List (CmdFrame × Instr) :=
  [(getReadingFrame, .wireGetReading), (range5000Frame, .wireRange5000), (p.range2000, .wireRange2000),
   (p.range10000, .wireRange10000), (p.abcEnable, .wireAbcEnable), (p.abcDisable, .wireAbcDisable),
   (p.calibrateZero, .wireCalibrateZero), (p.recover, .wireRecover)]

/-- The first row of the table whose frame is `f`. -/
def lookupFrame (f : CmdFrame) : List (CmdFrame × Instr) → Option Instr
  | [] => none
  | (g, i) :: rest => if f = g then some i else lookupFrame f rest

/-- The row of a wire frame: eight bytes of the table followed by their checksum (R61, R69). -/
def decodeWire (p : Params) (bs : List Byte) : Option Instr :=
  match cmdOfBytes (bs.take 8) with
  | some f => if bs = wireFrame f then lookupFrame f (wireTable p) else none
  | none => none

/-- Nine bytes: a wire frame of the table, or a response with its preamble (R61, R64). -/
def decodeFrame (p : Params) (bs : List Byte) : Except Reject Instr :=
  match decodeWire p bs with
  | some i => .ok i
  | none =>
    match takeResponse bs with
    | some (r, _) => if r.hasPreamble then .ok (.rspGetReading r) else .error .noSuchFrame
    | none => .error .noSuchFrame

/-- Decode one byte as the 6-bit operation word `{op_code, op_range}` of opcode_table.json (R80), nine bytes as a frame. -/
def decode (p : Params) (bs : List Byte) : Except Reject Instr :=
  match bs with
  | [b] =>
    if b.extractLsb' 6 2 = 0#2 then decodeRequest (b.extractLsb' 2 4) (b.extractLsb' 0 2) else .error .bitsAboveWord
  | _ => if bs.length = 9 then decodeFrame p bs else .error .noSuchLength

/-- The byte that holds `{op_code, op_range}` in bits 5:0 (R80). -/
def requestWord (code : BitVec 4) (range : BitVec 2) : Byte :=
  ((0#2 ++ code : BitVec 6) ++ range : BitVec 8)

/-- The frame a wire row sends, and whether a response is expected (R16, R71 to R77). -/
def wireRow (p : Params) : Instr → Option (CmdFrame × Bool)
  | .wireGetReading => some (getReadingFrame, true)
  | .wireRange5000 => some (range5000Frame, false)
  | .wireRange2000 => some (p.range2000, false)
  | .wireRange10000 => some (p.range10000, false)
  | .wireAbcEnable => some (p.abcEnable, false)
  | .wireAbcDisable => some (p.abcDisable, false)
  | .wireCalibrateZero => some (p.calibrateZero, false)
  | .wireRecover => some (p.recover, false)
  | _ => none

/-- The bytes of an instruction. `op_range` is 0 where the operation ignores it. -/
def encode (p : Params) : Instr → List Byte
  | .wireGetReading => wireFrame getReadingFrame
  | .wireRange5000 => wireFrame range5000Frame
  | .wireRange2000 => wireFrame p.range2000
  | .wireRange10000 => wireFrame p.range10000
  | .wireAbcEnable => wireFrame p.abcEnable
  | .wireAbcDisable => wireFrame p.abcDisable
  | .wireCalibrateZero => wireFrame p.calibrateZero
  | .wireRecover => wireFrame p.recover
  | .rspGetReading r => rspBytes r
  | .boot => [requestWord 0 0]
  | .tick => [requestWord 1 0]
  | .recover => [requestWord 2 0]
  | .calibrateZero => [requestWord 3 0]
  | .abcEnable => [requestWord 4 0]
  | .abcDisable => [requestWord 5 0]
  | .setRangeDefault => [requestWord 6 0]
  | .setRange2000 => [requestWord 6 1]
  | .setRange5000 => [requestWord 6 2]
  | .setRange10000 => [requestWord 6 3]

/-- The bytes of a number of opcode_table.json: up to 8 bits one byte, otherwise a frame as a 72-bit number whose most
significant byte is byte 0 (00_scope.md section 7, "Frame as a 72-bit number"; log entry 15). -/
def bytesOfTableWord (nbits w : Nat) : List Byte :=
  if nbits < 72 then
    if w < 256 then [BitVec.ofNat 8 w] else []
  else if w < 2 ^ 72 then
    [8, 7, 6, 5, 4, 3, 2, 1, 0].map fun k => BitVec.ofNat 8 (w / 256 ^ k)
  else []

/-- What the decoder reads from a row's word, the command table at the spec's defaults (log entry 6). -/
def decodeTableWord (nbits w : Nat) : Option Instr :=
  match decode defaultParams (bytesOfTableWord nbits w) with
  | .ok i => some i
  | .error _ => none

end Sys2Proof
end

