-- ==== Sys2Proof/Machine/Sequencer.lean ====
section
/-! DEFINITION. What the machine does next: which instruction it runs (an operation the host requests, the wire frame or the
response of the operation in progress), which internal step it takes, or which move of host or environment it takes; and how
a program word is placed. -/

namespace Sys2Proof.Machine

/-- SendCommand has returned `x`: its caller, the operation in OP, goes on (R92, R112, R130, R140). An internal step. -/
def returned (x : SendResult) (s : State) : State :=
  match s.op with
  | some .tick => tickReturned x s
  | some .boot => bootRange s
  | _ => finish s

/-- The framer's next step from its phase (R14). A phase whose registers hold no value stops (U3, log entry 25). -/
def resume (s : State) : Host.Outcome State Fault Refusal :=
  match s.ret with
  | some x => .next (returned x s)
  | none =>
    match s.phase with
    | .idle => .next s
    | .gate => tickGate s
    | .chkPre =>
      match s.rsp with
      | some r => .next (checkPreamble r s)
      | none => .fault (.noValue .rsp)
    | .chkSum =>
      match s.rsp with
      | some r => .next (checkSum r s)
      | none => .fault (.noValue .rsp)
    | .latch =>
      match s.rsp with
      | some r => .next (latch r s)
      | none => .fault (.noValue .rsp)
    | _ =>
      match s.cmd, s.expect with
      | some f, some e => exchangeStep f e s
      | none, _ => .fault (.noValue .cmd)
      | _, none => .fault (.noValue .expect)

/-- The framer has no step to take: a stalled flush, or a read the transport has not answered (R193, R202). -/
def waits (s : State) : Bool :=
  s.ret == none &&
    match s.phase with
    | .flush => s.stalls && s.txPending != []
    | .rxWait => readWaits s && decide (s.rxq.length < 9)
    | _ => false

/-- The move the environment owes: while a flush waits, the lower layer sends a byte, unless it stalls (weak fairness, R46,
R47; log entry 4); an environment that floods keeps RXQ non-empty while the framer drains (R93 (c); log entry 23). -/
def owedMove (s : State) : Option EnvMove :=
  match s.phase with
  | .flush => if s.ret = none ∧ s.txPending ≠ [] ∧ s.stalls = false then some .sent else none
  | .drain =>
    match s.rxq, s.floods with
    | [], some b => if s.ret = none then some (.rx [b]) else none
    | _, _ => none
  | _ => none

/-- The instruction an operation in progress is executing: the wire frame in CMD during its exchange, or the response in RSP
at its validation (log entry 14). -/
def frameInstr (s : State) : Option Instr :=
  if s.ret = none then
    if exchanging s.phase then
      match s.cmd, s.expect with
      | some f, some e =>
        match decodeWire s.params (wireFrame f) with
        | some i => if (wireRow s.params i).map Prod.snd = some e then some i else none
        | none => none
      | _, _ => none
    else if s.phase = .chkPre then s.rsp.map .rspGetReading
    else none
  else none

/-- What the machine does next. -/
inductive Next where
  /-- the framer executes an instruction -/
  | run (i : Instr) (s : State)
  /-- the framer takes an internal step, or rests -/
  | internal (o : Host.Outcome State Fault Refusal)
  /-- host or environment moves -/
  | moved (o : Host.Outcome State Fault Refusal)

/-- A step of the machine's own: the move the environment owes, or the framer's next step. An idle framer rests (R14, R181). -/
def ownNext (s : State) : Next :=
  match owedMove s with
  | some m => .moved (.next (envMove m s))
  | none =>
    if s.phase = .idle then .internal (.next s)
    else
      match frameInstr s with
      | some i => .run i s
      | none => .internal (resume s)

/-- A move of host or environment is taken. A request made while PHASE is not IDLE, or that names no operation, is refused:
it has no effect (R80, R142, D12). The configuration is written before BOOT only (R19). -/
def moveNext (m : Move) (s : State) : Next :=
  match m with
  | .env m => .moved (.next (envMove m s))
  | .reset => .moved (.next (resetFramer s))
  | .config c =>
    if s.phase = .idle ∧ s.bootDone = false then .moved (.next { s with cfg := c }) else .moved (.refused .configNotWritable)
  | .request code range =>
    if s.phase = .idle then
      match decodeRequest code range with
      | .ok i => .run i s
      | .error _ => .moved (.next s)
    else .moved (.next s)

/-- The next line of a script may be taken: the framer is IDLE, or has no step to take (R81). -/
def lineOpen (s : State) : Bool := s.phase == .idle || waits s

/-- The machine's next move. -/
def fetch (s : State) : Next :=
  match s.agenda with
  | [] => ownNext s
  | .turn :: rest => ownNext { s with agenda := rest }
  | .now m :: rest => moveNext m { s with agenda := rest }
  | .line m :: rest => if lineOpen s then moveNext m { s with agenda := rest } else ownNext s

/-- An operation word is placed as the host's next request, with the framer IDLE and ready to take it: BOOT before
BOOT_DONE, every other operation after it (R142; log entry 16). -/
def placeRequest (b : Byte) (s : State) : State :=
  let code := b.extractLsb' 2 4
  { finish s with bootDone := code != 0#4, agenda := .now (.request code (b.extractLsb' 0 2)) :: s.agenda }

/-- The operation a wire frame is sent by, where one operation sends it (R71 to R77). -/
def senderOf : Instr → Option Op
  | .wireGetReading => some .tick
  | .wireRange5000 => some (.setRange .r5000)
  | .wireRange2000 => some (.setRange .r2000)
  | .wireRange10000 => some (.setRange .r10000)
  | .wireAbcEnable => some .abcEnable
  | .wireAbcDisable => some .abcDisable
  | .wireCalibrateZero => some .calibrateZero
  | .wireRecover => some .recover
  | _ => none

/-- A frame is placed where an operation in progress takes it: a wire frame in CMD at the start of its exchange, a response
in RSP at the start of its validation (log entry 16). -/
def placeFrame (bs : List Byte) (s : State) : State :=
  match decodeFrame s.params bs with
  | .ok (.rspGetReading r) =>
    { finish s with phase := .chkPre, op := some .tick, cmd := some getReadingFrame, expect := some true, rsp := some r,
                    bootDone := true, agenda := .turn :: s.agenda }
  | .ok i =>
    { finish s with phase := .drain, op := senderOf i, cmd := cmdOfBytes (bs.take 8),
                    expect := (wireRow s.params i).map Prod.snd, bootDone := true, floods := none,
                    agenda := .turn :: s.agenda }
  | .error _ => s

/-- The instruction of a table word stored where the next step takes it (log entry 16). -/
def placeWord (s : State) (nbits w : Nat) : State :=
  match bytesOfTableWord nbits w with
  | [b] => placeRequest b s
  | bs => placeFrame bs s

end Sys2Proof.Machine
end

