-- ==== Sys2Proof/Machine/Step.lean ====
section
/-! DEFINITION. One step of the machine: one move of host or environment, one transport primitive of the framer, or one
internal step of it (R8, D1, log entry 1). -/

namespace Sys2Proof.Machine

/-- One step: the fetched instruction is executed, or the machine takes the step or move that `fetch` names. -/
def step (s : State) : Host.Outcome State Fault Refusal :=
  match fetch s with
  | .run i s1 => exec i s1
  | .internal o => o
  | .moved o => o

/-- `s` with the instruction of a table word stored where the next step takes it (log entry 16). -/
def State.withFetchWord (s : State) (nbits w : Nat) : State := placeWord s nbits w

end Sys2Proof.Machine
end

