-- ==== Sys2Proof/Machine/Ports.lean ====
section
/-! DEFINITION. The ports of a register-level implementation (R36, informative; log entry 22) as a view: the levels a state
shows, the inputs it sees, and the strobes of one step. -/

namespace Sys2Proof.Machine

/-- The level outputs of R36. -/
structure OutPorts where
  opReady : Bool
  warning : Bool
  wcause : BitVec 3
  co2 : Option (BitVec 16)
  temp : Option (BitVec 16)
  status : Option Byte
  csCalc : Option Byte
  csRecv : Option Byte
deriving DecidableEq, Repr

/-- The outputs of a state: `op_ready` is 1 exactly when PHASE is IDLE (R36). -/
def outPorts (s : State) : OutPorts where
  opReady := s.phase == .idle
  warning := s.warning
  wcause := causeCode s.wcause
  co2 := s.co2
  temp := s.temp
  status := s.status
  csCalc := s.csCalc
  csRecv := s.csRecv

/-- The configuration the ports `cfg_*` carry (R20 to R23, R36). -/
def configOfPorts (warmupS : BitVec 32) (abcBoot range : BitVec 2) (co2En tempEn : Bool) : Configuration where
  warmupS := warmupS
  abcBoot := abcOfCode abcBoot
  range := rangeOfCode range
  co2SinkEn := co2En
  tempSinkEn := tempEn

/-- The inputs of R36, but for `now_ms` (`nowPort`), whose width is a parameter. -/
structure InPorts where
  cfgWarmupS : BitVec 32
  cfgAbcBoot : BitVec 2
  cfgRange : BitVec 2
  cfgCo2SinkEn : Bool
  cfgTempSinkEn : Bool
  /-- `op_valid` with `op_code`, `op_range` -/
  op : Option (BitVec 4 × BitVec 2)
  rxAvail : Bool
  rxData : Option Byte
  rxRead9Ok : Bool
  rxRead9Fail : Bool
  txReady : Bool
  txFlushed : Bool
deriving DecidableEq, Repr

/-- The request on the ports `op_valid`, `op_code`, `op_range`: the move the host makes next, once its line has come. -/
def requestPort (s : State) : Option (BitVec 4 × BitVec 2) :=
  match s.agenda with
  | .now (.request code range) :: _ => some (code, range)
  | .line (.request code range) :: _ => if lineOpen s then some (code, range) else none
  | _ => none

/-- The inputs as the framer sees them: the configuration's codes, the request, the state of the transport. A push never
waits, so `tx_ready` is 1 (R46). -/
def inPorts (s : State) : InPorts where
  cfgWarmupS := s.cfg.warmupS
  cfgAbcBoot := abcCode s.cfg.abcBoot
  cfgRange := rangeCode s.cfg.range
  cfgCo2SinkEn := s.cfg.co2SinkEn
  cfgTempSinkEn := s.cfg.tempSinkEn
  op := requestPort s
  rxAvail := s.rxq != []
  rxData := s.rxq.head?
  rxRead9Ok := s.phase == .rxWait && s.ret == none && decide (9 ≤ s.rxq.length)
  rxRead9Fail := s.phase == .rxWait && s.ret == none && decide (s.rxq.length < 9) && !readWaits s
  txReady := true
  txFlushed := s.txPending == []

/-- The input `now_ms`, `CLOCK_BITS` wide: NOW_MS while it fits (R36, R170). At or beyond `2^CLOCK_BITS` the spec leaves it
unspecified (R170 (c), U6) and forbids a guessed wrap; that the view shows no value there is a DESIGN CHOICE (log entry 29). -/
def nowPort (s : State) : Option (BitVec s.params.clockBits) :=
  if s.nowMs < 2 ^ s.params.clockBits then some (BitVec.ofNat _ s.nowMs) else none

/-- The strobes of R36. -/
structure Strobes where
  /-- `op_done` -/
  opDone : Bool
  /-- `rx_pop`, once for each of these bytes -/
  rxPop : List Byte
  /-- `rx_read9_start` -/
  rxRead9Start : Bool
  /-- `tx_valid` with `tx_data` -/
  txData : Option Byte
  /-- `tx_flush` -/
  txFlush : Bool
  /-- `co2_pub` with `co2` -/
  co2Pub : Option (BitVec 16)
  /-- `temp_pub` with `temp` -/
  tempPub : Option (BitVec 16)
deriving DecidableEq, Repr

/-- The framer takes the request of this operation (R140, R142); a frame is no request. -/
def takes (i : Instr) (s : State) : Bool :=
  match i with
  | .boot => bootable s
  | .tick | .recover | .calibrateZero | .abcEnable | .abcDisable => ready s
  | .setRangeDefault | .setRange2000 | .setRange5000 | .setRange10000 => ready s
  | .wireGetReading | .wireRange5000 | .wireRange2000 | .wireRange10000 => false
  | .wireAbcEnable | .wireAbcDisable | .wireCalibrateZero | .wireRecover | .rspGetReading _ => false

/-- `op_done` in the step from `s` to `t`: an operation returns to IDLE by the framer's own step, be it the step in which it
was taken. A refused request and a reset give no strobe. -/
def opDone (s t : State) : Bool :=
  t.phase == .idle &&
    match fetch s with
    | .run i s1 => s.phase != .idle || takes i s1
    | .internal _ => s.phase != .idle
    | .moved _ => false

/-- The bytes `rx_pop` takes: one in a drain, nine with a 9-byte read that is answered. -/
def poppedBytes : List Act → List Byte
  | [] => []
  | .pop b :: rest => b :: poppedBytes rest
  | .readOk r :: rest => rspBytes r ++ poppedBytes rest
  | _ :: rest => poppedBytes rest

/-- The byte a record of primitives pushes first. -/
def pushedByte : List Act → Option Byte
  | [] => none
  | .push b :: _ => some b
  | _ :: rest => pushedByte rest

/-- The first CO2 value of a record of publish events. -/
def publishedCo2 : List Publish → Option (BitVec 16)
  | [] => none
  | .co2 v :: _ => some v
  | _ :: rest => publishedCo2 rest

/-- The first temperature of a record of publish events. -/
def publishedTemp : List Publish → Option (BitVec 16)
  | [] => none
  | .temp v :: _ => some v
  | _ :: rest => publishedTemp rest

/-- The strobes of the step from `s` to `t`. `tx_flush` is given when FLUSH is entered and `rx_read9_start` when RXWAIT is,
before the transport answers. -/
def strobes (s t : State) : Strobes where
  opDone := opDone s t
  rxPop := poppedBytes (t.acts.drop s.acts.length)
  rxRead9Start := s.phase == .flush && t.phase == .rxWait
  txData := pushedByte (t.acts.drop s.acts.length)
  txFlush := s.phase == .tx && t.phase == .flush
  co2Pub := publishedCo2 (t.pubs.drop s.pubs.length)
  tempPub := publishedTemp (t.pubs.drop s.pubs.length)

end Sys2Proof.Machine
end

