-- ==== Sys2Proof/Safety.lean ====
section
/-! DEFINITION. The terms statements are made in: who moves next, runs, the shape of a state between steps, the record of the
primitives, a transport that behaves, the end of a run. -/

namespace Sys2Proof

open Machine

/-! ### Who moves next -/

/-- The next step takes the host's or the environment's move `m`, and `rest` is still to come. -/
def Taken (s : State) (m : Move) (rest : List Event) : Prop :=
  s.agenda = .now m :: rest ∨ (s.agenda = .line m :: rest ∧ lineOpen s = true)

/-- The next step is the machine's own, made from `s1`: `s` without the entry that gave it its turn. -/
def OwnStep (s s1 : State) : Prop :=
  (s.agenda = [] ∧ s1 = s) ∨ (∃ rest, s.agenda = .turn :: rest ∧ s1 = { s with agenda := rest }) ∨
    (∃ m rest, s.agenda = .line m :: rest ∧ lineOpen s = false ∧ s1 = s)

/-- The next step is a reset. -/
def ResetTaken (s : State) : Prop := ∃ rest, Taken s .reset rest

/-- The next step takes a request of the operation `code`. -/
def RequestTaken (code : BitVec 4) (s : State) : Prop := ∃ range rest, Taken s (.request code range) rest

/-- No move falls inside the operation that runs next: the agenda is empty or goes on with a line. -/
def Quiet (s : State) : Prop := s.agenda = [] ∨ ∃ m rest, s.agenda = .line m :: rest

/-- The environment lets an exchange through: the lower layer empties (R47) and nobody keeps RXQ full (R194). -/
def Fair (s : State) : Prop := s.stalls = false ∧ s.floods = none

/-- Some number of steps leads from `s` to `t`. -/
inductive Reaches : State → State → Prop where
  | here (s : State) : Reaches s s
  | next {s t u : State} (h : step s = .next t) (r : Reaches t u) : Reaches s u

/-! ### The record of the primitives -/

/-- The bytes of the pushes in a record of primitives, in order. -/
def pushes : List Act → List Byte
  | [] => []
  | .push b :: rest => b :: pushes rest
  | _ :: rest => pushes rest

/-- The bytes a primitive takes from RXQ (R42, R43, R45). -/
def bytesTaken : Act → List Byte
  | .pop b => [b]
  | .push _ => []
  | .flush => []
  | .readOk r => rspBytes r
  | .readFail bs => bs

/-- The bytes taken from RXQ in a record of primitives, in order. -/
def takenBytes (as : List Act) : List Byte := as.flatMap bytesTaken

/-- What an exchange of the frame `f` does up to its flush, `ps` the bytes its drain pops (R53). -/
def exchangeActs (f : CmdFrame) (ps : List Byte) : List Act := ps.map .pop ++ (wireFrame f).map .push ++ [.flush]

/-- A whole exchange of a frame of the table: the read follows exactly when a response is expected (R53). -/
def WholeExchange (p : Params) (as : List Act) : Prop :=
  ∃ i f e ps, wireRow p i = some (f, e) ∧
    if e then (∃ r, as = exchangeActs f ps ++ [.readOk r]) ∨ (∃ bs, as = exchangeActs f ps ++ [.readFail bs])
    else as = exchangeActs f ps

/-- What the exchange in progress has done so far, in each phase (R53): pops; then pushes of CMD and its checksum in index
order; then one flush; then, if a response is expected, the read. -/
def DoneSoFar (s : State) (as : List Act) : Prop :=
  match s.phase with
  | .drain => ∃ ps : List Byte, as = ps.map .pop
  | .tx => ∃ f i, s.cmd = some f ∧ s.bcnt = some i ∧
      ∃ ps : List Byte, as = ps.map .pop ++ ((cmdBytes f).take i.toNat).map .push
  | .flush => ∃ f, s.cmd = some f ∧ ∃ ps,
      (s.ret = none ∧ as = ps.map .pop ++ (wireFrame f).map .push) ∨ (s.ret ≠ none ∧ as = exchangeActs f ps)
  | .rxWait => ∃ f, s.cmd = some f ∧ ∃ ps,
      (s.ret = none ∧ as = exchangeActs f ps) ∨
      (s.ret = some .ok ∧ ∃ r, s.rsp = some r ∧ as = exchangeActs f ps ++ [.readOk r]) ∨
      (s.ret = some .fail ∧ ∃ bs, as = exchangeActs f ps ++ [.readFail bs])
  | .chkPre => ∃ f r, s.cmd = some f ∧ s.rsp = some r ∧ ∃ ps, as = exchangeActs f ps ++ [.readOk r]
  | .idle => as = []
  | .gate | .chkSum | .latch => False

/-- The flush of the exchange in progress has returned. -/
def flushed (s : State) : Prop := s.phase = .rxWait ∨ s.phase = .chkPre ∨ (s.phase = .flush ∧ s.ret ≠ none)

/-- The order of the primitives (R53): since reset the framer has made whole exchanges, one after the other, and the part
of the exchange in progress; the pushed bytes are the last on the line; and once the flush has returned none is pending. -/
structure InOrder (s : State) : Prop where
  record : ∃ (whole : List (List Act)) (part : List Act),
    (∀ as ∈ whole, WholeExchange s.params as) ∧ s.acts = whole.flatten ++ part ∧ DoneSoFar s part
  line : ∃ before, s.wire ++ s.txPending = before ++ pushes s.acts
  sent : flushed s → s.txPending = []

/-- The frames of the command table (R70). -/
def tableFrames (p : Params) : List CmdFrame := (wireTable p).map Prod.fst

/-- What the pushes since reset are: whole wire frames of the table, then the bytes of the exchange in progress
(R34 (a), R61, R69). -/
def FramesOnly (s : State) : Prop :=
  ∃ fs : List CmdFrame, (∀ f ∈ fs, f ∈ tableFrames s.params) ∧
    match s.phase, s.cmd, s.bcnt with
    | .tx, some f, some i => pushes s.acts = fs.flatMap wireFrame ++ (cmdBytes f).take i.toNat
    | _, _, _ => pushes s.acts = fs.flatMap wireFrame

/-- A response the framer accepts: known preamble and matching checksum (R68 class (3)). -/
def accepted (r : RspFrame) : Bool := r.hasPreamble && checksumMatches r

/-- Every publish event carries a field of a response that was read since reset and accepted (R34 (b), (c)). -/
def PublishesTrusted (s : State) : Prop :=
  (∀ v, .co2 v ∈ s.pubs → ∃ r, .readOk r ∈ s.acts ∧ accepted r = true ∧ v = co2Word r) ∧
    (∀ v, .temp v ∈ s.pubs → ∃ r, .readOk r ∈ s.acts ∧ accepted r = true ∧ v = tempWord r) ∧
    (∀ r, s.rsp = some r → .readOk r ∈ s.acts)

/-! ### The shape of a state -/

/-- No transient register holds a value (R11 to R17). -/
def NoTransients (s : State) : Prop :=
  s.op = none ∧ s.cmd = none ∧ s.rsp = none ∧ s.csum = none ∧ s.bcnt = none ∧ s.expect = none ∧ s.ret = none ∧
    s.rangeLeft = false

/-- An exchange is in progress: CMD and EXPECT are those of a row of the table, and a response is expected in a TICK and in
no other operation (R11, R16). -/
def InExchange (s : State) : Prop :=
  ∃ i f e, wireRow s.params i = some (f, e) ∧ s.cmd = some f ∧ s.expect = some e ∧ s.op ≠ none ∧
    (e = true ↔ s.op = some .tick)

/-- The running sum of the first `n` bytes of a frame, byte 0 not counted (R90). -/
def partialSum (f : CmdFrame) (n : Nat) : Byte := (((cmdBytes f).take n).drop 1).foldl add8 0

/-- Which registers hold values in which phase, between steps (R11 to R18; the phases GATE, CHK_SUM and LATCH are passed
inside one step, log entry 1). -/
def PhaseShape (s : State) : Prop :=
  match s.phase with
  | .idle => NoTransients s
  | .drain => InExchange s ∧ s.rsp = none ∧ s.csum = none ∧ s.bcnt = none ∧ s.ret = none
  | .tx => InExchange s ∧ s.rsp = none ∧ s.ret = none ∧
      ∃ f i, s.cmd = some f ∧ s.bcnt = some i ∧ i.toNat ≤ 8 ∧ s.csum = some (partialSum f i.toNat)
  | .flush => InExchange s ∧ s.rsp = none ∧ s.csum = none ∧ s.bcnt = none ∧
      (s.ret = none ∨ (s.ret = some .ok ∧ s.expect = some false))
  | .rxWait => InExchange s ∧ s.csum = none ∧ s.bcnt = none ∧ s.expect = some true ∧
      ((s.ret = none ∧ s.rsp = none) ∨ (s.ret = some .ok ∧ s.rsp ≠ none) ∨ (s.ret = some .fail ∧ s.rsp = none))
  | .chkPre => InExchange s ∧ s.csum = none ∧ s.bcnt = none ∧ s.expect = some true ∧ s.ret = none ∧ s.rsp ≠ none
  | .gate | .chkSum | .latch => False

/-- The invariant of the sequencer, the flag and the life cycle, that every step keeps: the transient registers are as the
phase says; WARNING and WCAUSE agree (R24, R25); before BOOT is done only BOOT runs (R18, R142); only BOOT has a range part
to do (R141). -/
structure SequencerInv (s : State) : Prop where
  shape : PhaseShape s
  cause : s.warning = true ↔ s.wcause ≠ .none
  booted : s.op ≠ none → (s.op = some .boot ↔ s.bootDone = false)
  range : s.rangeLeft = true → s.op = some .boot

/-! ### States compared -/

/-- The state after an exchange of the frame `f` whose flush has returned, in the drain's and the flush's own terms: the queue
popped empty, nine bytes on WIRE behind those that were pending, the armed reply in RXQ, the primitives recorded in order
(R92 to R95, R53). -/
def exchanged (f : CmdFrame) (s : State) : State :=
  { s with
    rxq := s.onFlush, onFlush := [], txPending := [], wire := s.wire ++ s.txPending ++ wireFrame f,
    acts := s.acts ++ exchangeActs f s.rxq }

/-- The two states have the same flag and the same outputs. -/
def SameOutputs (s t : State) : Prop :=
  t.warning = s.warning ∧ t.wcause = s.wcause ∧ t.co2 = s.co2 ∧ t.temp = s.temp ∧ t.status = s.status ∧
    t.csCalc = s.csCalc ∧ t.csRecv = s.csRecv ∧ t.pubs = s.pubs

/-- The two states have the same configuration and parameters, the same time, and the same environment (R118): they may
differ in every output and in every register an operation uses. -/
def SameSurroundings (s s' : State) : Prop :=
  s'.cfg = s.cfg ∧ s'.params = s.params ∧ s'.nowMs = s.nowMs ∧ s'.rxq = s.rxq ∧ s'.txPending = s.txPending ∧
    s'.wire = s.wire ∧ s'.onFlush = s.onFlush ∧ s'.giveUp = s.giveUp ∧ s'.stalls = s.stalls ∧ s'.floods = s.floods ∧
    s'.draws = s.draws ∧ s'.agenda = s.agenda

/-- The two states stand at the same point of the same operation: they may differ in every output, in BOOT_DONE and in the
records. -/
def SamePoint (s s' : State) : Prop :=
  SameSurroundings s s' ∧ s'.phase = s.phase ∧ s'.op = s.op ∧ s'.cmd = s.cmd ∧ s'.rsp = s.rsp ∧ s'.csum = s.csum ∧
    s'.bcnt = s.bcnt ∧ s'.expect = s.expect ∧ s'.ret = s.ret ∧ s'.rangeLeft = s.rangeLeft

/-- Two ticks have ended alike, from `s` in `t` and from `s'` in `t'`: the same warning and cause; on success the same STATUS
and, where published, the same values; on CHECKSUM the same record. -/
def EndsAlike (s s' t t' : State) : Prop :=
  t'.warning = t.warning ∧ t'.wcause = t.wcause ∧
    (t.wcause = .none → t'.status = t.status ∧ (s.cfg.co2SinkEn = true → t'.co2 = t.co2) ∧
      (s.cfg.tempSinkEn = true → t'.temp = t.temp) ∧ ∃ ps, t.pubs = s.pubs ++ ps ∧ t'.pubs = s'.pubs ++ ps) ∧
    (t.wcause = .checksum → t'.csCalc = t.csCalc ∧ t'.csRecv = t.csRecv)

/-! ### The end of a run, outcomes -/

/-- The run is over: the script is exhausted and PHASE is IDLE (R202). -/
def RunOver (s : State) : Prop := s.agenda = [] ∧ s.phase = .idle

/-- The framer waits, in RXWAIT or in FLUSH, and nothing is left that could move: stuck, not final (R202). -/
def Stuck (s : State) : Prop := s.agenda = [] ∧ waits s = true

/-- The outcome is a next state that satisfies `P`. -/
def NextAnd (o : Host.Outcome State Fault Refusal) (P : State → Prop) : Prop :=
  match o with
  | .next t => P t
  | .fault _ => False
  | .refused _ => False

end Sys2Proof
end

