-- ==== Sys2Proof/Certificates/Slice0/Obligations.lean ====
section
/-! DEFINITION. The statements for the provers. -/

open Sys2Proof Sys2Proof.Machine

/-! ### Encoding -/

/-- Words written out from the spec's encodings decode to the rows they stand for (R61, R64, R71, R72, R80). The three
parameter frames among them are the defaults of log entry 6. -/
def Obligations.DecodesSpecWords : Prop :=
  decode defaultParams [0xFF, 0x01, 0x86, 0x00, 0x00, 0x00, 0x00, 0x00, 0x79] = .ok .wireGetReading ∧
  decode defaultParams [0xFF, 0x01, 0x99, 0x00, 0x00, 0x00, 0x13, 0x88, 0xCB] = .ok .wireRange5000 ∧
  decode defaultParams [0xFF, 0x01, 0x79, 0xA0, 0x00, 0x00, 0x00, 0x00, 0xE6] = .ok .wireAbcEnable ∧
  decode defaultParams [0xFF, 0x86, 0x03, 0xE8, 0x28, 0x00, 0x00, 0x00, 0x67] =
    .ok (.rspGetReading ⟨0xFF, 0x86, 0x03, 0xE8, 0x28, 0x00, 0x00, 0x00, 0x67⟩) ∧
  decode defaultParams [0x04] = .ok .tick ∧
  decode defaultParams [0x1A] = .ok .setRange5000 ∧
  decode defaultParams [0xFF, 0x01, 0x86, 0x00, 0x00, 0x00, 0x00, 0x00, 0x78] = .error .noSuchFrame ∧
  decode defaultParams [0x1C] = .error .noSuchOperation

/-- For every value of the parameters under which the eight command frames are different (R78 does not require it: a
premise of this statement, log entry 24), decoding the encoding of a well-formed instruction gives it back. -/
def Obligations.DecodeOfEncode : Prop :=
  ∀ p : Params, paramsWellFormed p = true → framesDistinct p = true →
    ∀ i : Instr, i.wellFormed = true → decode p (encode p i) = .ok i

/-- Whatever decodes is well formed, and no bit of it was dropped: a nine-byte frame is the encoding of its instruction,
and one byte is an operation word whose two fields name the operation (R61, R64, R80). -/
def Obligations.EncodeOfDecode : Prop :=
  ∀ (p : Params) (bs : List Byte) (i : Instr), decode p bs = .ok i →
    i.wellFormed = true ∧
      ((bs.length = 9 ∧ encode p i = bs) ∨
        ∃ (code : BitVec 4) (range : BitVec 2), bs = [requestWord code range] ∧ decodeRequest code range = .ok i)

/-- `op_range` is ignored by every operation but SET_RANGE (R80). -/
def Obligations.OpRangeReadBySetRangeOnly : Prop :=
  ∀ (code : BitVec 4) (r r' : BitVec 2), code ≠ 6 → decodeRequest code r = decodeRequest code r'

/-- The codes of the configuration ports, of `op_range` in a SET_RANGE request and of the cause register, one by one; the two
readings of a port are inverse to them; ABC_BOOT code 3 is treated as unspecified (R21, R22, R25, R80). -/
def Obligations.PortCodes : Prop :=
  (rangeCode .default = 0 ∧ rangeCode .r2000 = 1 ∧ rangeCode .r5000 = 2 ∧ rangeCode .r10000 = 3) ∧
    (abcCode .unspecified = 0 ∧ abcCode .enabled = 1 ∧ abcCode .disabled = 2) ∧
    (decodeRequest 6 0 = .ok .setRangeDefault ∧ decodeRequest 6 1 = .ok .setRange2000 ∧
      decodeRequest 6 2 = .ok .setRange5000 ∧ decodeRequest 6 3 = .ok .setRange10000) ∧
    (causeCode .none = 0 ∧ causeCode .warmup = 1 ∧ causeCode .transport = 2 ∧ causeCode .preamble = 3 ∧
      causeCode .checksum = 4) ∧
    (∀ r : Range, rangeOfCode (rangeCode r) = r) ∧ (∀ c : BitVec 2, rangeCode (rangeOfCode c) = c) ∧
    (∀ a : AbcPolicy, abcOfCode (abcCode a) = a) ∧ abcOfCode 3 = .unspecified ∧
    (∀ s : State, (outPorts s).wcause = causeCode s.wcause ∧ (inPorts s).cfgRange = rangeCode s.cfg.range ∧
      (inPorts s).cfgAbcBoot = abcCode s.cfg.abcBoot)

/-! ### The checksum -/

/-- The law of R91 and its consequences (a) to (e), for 9-byte frames `G` and, the law itself, 8-byte frames. -/
def Obligations.ChecksumSumToZero : Prop :=
  (∀ B : List Byte, B.length = 8 → ((((B.drop 1).take 7).map BitVec.toNat).sum + (checksum B).toNat) % 256 = 0) ∧
  ∀ G : List Byte, G.length = 9 →
    (G[8]! = checksum G ↔ ((G.drop 1).map BitVec.toNat).sum % 256 = 0) ∧
    (∃! c : Byte, c = checksum (G.set 8 c)) ∧
    (G[8]! = checksum G → ∀ (j : Nat) (b : Byte), 1 ≤ j → j ≤ 8 → b ≠ G[j]! →
      (G.set j b)[8]! ≠ checksum (G.set j b)) ∧
    (G[8]! = checksum G → ∀ (j k : Nat) (d : Byte), 1 ≤ j → j < k → k ≤ 8 →
      ((G.set j (G[j]! + d)).set k (G[k]! - d))[8]! = checksum ((G.set j (G[j]! + d)).set k (G[k]! - d))) ∧
    (∀ b : Byte, checksum (G.set 0 b) = checksum G)

/-- The checksum function of R90: its steps, its closed forms, its corner cases (a) to (d) and (f), its example. -/
def Obligations.ChecksumClosedForms : Prop :=
  (∀ F : List Byte, 8 ≤ F.length →
    let s := F[1]! + F[2]! + F[3]! + F[4]! + F[5]! + F[6]! + F[7]!
    checksum F = (0xFF#8 - s) + 1 ∧ checksum F = 0 - s ∧ checksum F = ~~~s + 1 ∧
      (checksum F).toNat = (256 - (((F.drop 1).take 7).map BitVec.toNat).sum % 256) % 256 ∧
      (s = 0x00 → checksum F = 0x00) ∧ (s = 0xFF → checksum F = 0x01) ∧ (s = 0x01 → checksum F = 0xFF) ∧
      (s ≠ 0 → (checksum F = s ↔ s = 0x80)) ∧
      (∀ b : Byte, checksum (F.set 0 b) = checksum F) ∧ checksum (F.take 8) = checksum F) ∧
  checksum [0xFF, 0x01, 0x86, 0x00, 0x00, 0x00, 0x00, 0x00] = 0x79

/-! ### SendCommand: the eight wire frames -/

/-- Each of the seven command frames that expect no response, sent from IDLE while nothing interferes: exec begins the exchange,
and it completes (R92 to R96). The queue is drained, nine bytes are on WIRE, the result is OK. -/
def Obligations.WireCommandFramesComplete : Prop :=
  ∀ s : State, s.phase = .idle → Quiet s → Fair s →
    let completes (i : Instr) (f : CmdFrame) : Prop :=
      exec i s = .next (startExchange f false s) ∧ Reaches (startExchange f false s)
        { exchanged f s with phase := .flush, cmd := some f, expect := some false, csum := none, bcnt := none,
                             ret := some .ok }
    completes .wireRange5000 range5000Frame ∧
    completes .wireRange2000 s.params.range2000 ∧
    completes .wireRange10000 s.params.range10000 ∧
    completes .wireAbcEnable s.params.abcEnable ∧
    completes .wireAbcDisable s.params.abcDisable ∧
    completes .wireCalibrateZero s.params.calibrateZero ∧
    completes .wireRecover s.params.recover

/-- WIRE_GET_READING from IDLE when at least nine bytes arrive with the flush: exec begins the exchange, and it completes; the
oldest nine bytes go to RSP, later ones stay (R97). -/
def Obligations.WireGetReadingAnswered : Prop :=
  ∀ (s : State) (r : RspFrame) (rest : List Byte), s.phase = .idle → Quiet s → Fair s → s.onFlush = rspBytes r ++ rest →
    exec .wireGetReading s = .next (startExchange getReadingFrame true s) ∧
    Reaches (startExchange getReadingFrame true s)
      { exchanged getReadingFrame s with
        phase := .rxWait, cmd := some getReadingFrame, expect := some true, csum := none, bcnt := none, rxq := rest,
        rsp := some r, ret := some .ok, giveUp := false,
        acts := (exchanged getReadingFrame s).acts ++ [.readOk r] }

/-- WIRE_GET_READING from IDLE when fewer than nine bytes arrive and the transport gives up: FAIL, RSP has no value, some bytes
`bs` from the head of the queue are gone (R97, R45). It holds for every value of the draw (log entry 9). That the transport
gives up at once when no move of the environment comes next (`moveAhead s = false`) is the model's DESIGN CHOICE of log entry
20, no words of R45. -/
def Obligations.WireGetReadingFails : Prop :=
  ∀ s : State, s.phase = .idle → Quiet s → Fair s → s.onFlush.length < 9 → s.params.transportBlocking = false →
    (s.giveUp = true ∨ moveAhead s = false) →
    exec .wireGetReading s = .next (startExchange getReadingFrame true s) ∧
    ∃ bs rest, s.onFlush = bs ++ rest ∧ Reaches (startExchange getReadingFrame true s)
      { exchanged getReadingFrame s with
        phase := .rxWait, cmd := some getReadingFrame, expect := some true, csum := none, bcnt := none,
        rxq := rest, rsp := none, ret := some .fail, giveUp := false, draws := s.draws + 1,
        acts := (exchanged getReadingFrame s).acts ++ [.readFail bs] }

/-- The steps of an exchange, each the exec of its wire frame on the state the exchange has come to: one pop while RXQ is not
empty, else on to TX (R93); the next byte of CMD with the running sum, or the checksum and on to FLUSH (R94, R90); the flush
returns exactly when TX_PENDING is empty (R95, R47), with the result OK when no response is expected (R96); the read takes the
nine oldest bytes, or fails, or waits (R97, R45). When a short read waits (`readWaits`) is the model's DESIGN CHOICE of log
entry 20. -/
def Obligations.ExchangeSteps : Prop :=
  ∀ (s : State) (i : Instr) (f : CmdFrame) (e : Bool), wireRow s.params i = some (f, e) → s.cmd = some f →
    s.expect = some e → s.ret = none →
    (∀ b rest, s.phase = .drain → s.rxq = b :: rest →
      exec i s = .next { s with rxq := rest, acts := s.acts ++ [.pop b] }) ∧
    (s.phase = .drain → s.rxq = [] → exec i s = .next { s with phase := .tx, bcnt := some 0, csum := some 0 }) ∧
    (∀ n c b, s.phase = .tx → s.bcnt = some n → s.csum = some c → (cmdBytes f)[n.toNat]? = some b →
      exec i s = .next { s with txPending := s.txPending ++ [b], acts := s.acts ++ [.push b], bcnt := some (n + 1),
                                csum := some (if n = 0 then c else c + b) }) ∧
    (∀ n c, s.phase = .tx → s.bcnt = some n → s.csum = some c → 8 ≤ n.toNat →
      exec i s = .next { s with txPending := s.txPending ++ [(0xFF#8 - c) + 1], acts := s.acts ++ [.push ((0xFF#8 - c) + 1)],
                                phase := .flush, bcnt := none, csum := none }) ∧
    (s.phase = .flush → s.txPending ≠ [] → exec i s = .next s) ∧
    (s.phase = .flush → s.txPending = [] → e = false →
      exec i s = .next { s with rxq := s.rxq ++ s.onFlush, onFlush := [], acts := s.acts ++ [.flush], ret := some .ok }) ∧
    (s.phase = .flush → s.txPending = [] → e = true →
      exec i s = .next { s with rxq := s.rxq ++ s.onFlush, onFlush := [], acts := s.acts ++ [.flush], phase := .rxWait }) ∧
    (∀ r rest, s.phase = .rxWait → s.rxq = rspBytes r ++ rest →
      exec i s = .next { s with rxq := rest, rsp := some r, ret := some .ok, giveUp := false,
                                acts := s.acts ++ [.readOk r] }) ∧
    (s.phase = .rxWait → s.rxq.length < 9 → readWaits s = true → exec i s = .next s) ∧
    (s.phase = .rxWait → s.rxq.length < 9 → readWaits s = false → ∃ bs rest, s.rxq = bs ++ rest ∧
      exec i s = .next { s with rxq := rest, rsp := none, ret := some .fail, giveUp := false, draws := s.draws + 1,
                                acts := s.acts ++ [.readFail bs] })

/-- The frame of a step of an exchange: no output, no configuration, no operation register, no byte on WIRE, no clock changes;
RSP is written in RXWAIT alone (R96, R98). -/
def Obligations.ExchangeLeavesTheRest : Prop :=
  ∀ (s t : State) (i : Instr) (f : CmdFrame) (e : Bool), wireRow s.params i = some (f, e) → exec i s = .next t →
    SameOutputs s t ∧ t.bootDone = s.bootDone ∧ t.cfg = s.cfg ∧ t.params = s.params ∧ t.op = s.op ∧
    t.rangeLeft = s.rangeLeft ∧ t.nowMs = s.nowMs ∧ t.wire = s.wire ∧ t.agenda = s.agenda ∧ t.stalls = s.stalls ∧
    t.floods = s.floods ∧ t.cmd = some f ∧ t.expect = some e ∧
    (s.phase ≠ .rxWait → t.rsp = s.rsp ∧ t.draws = s.draws ∧ t.giveUp = s.giveUp)

/-- R53, kept by every step: since reset the framer has made whole exchanges, one after the other, then a part of one; each is
the pops of its drain, the pushes of the eight bytes of CMD in index order, the push of the checksum, one flush, and then the
read if a response is expected; and once the flush has returned, before the read starts, no pushed byte is off the line. -/
def Obligations.ExchangePrimitivesInOrder : Prop :=
  ∀ s t : State, SequencerInv s → InOrder s → step s = .next t → InOrder t

/-- A blocking transport never fails a 9-byte read (R45): no step records a failed read, nor ends an exchange with FAIL. -/
def Obligations.BlockingReadNeverFails : Prop :=
  ∀ s t : State, s.params.transportBlocking = true → step s = .next t →
    (∀ bs, .readFail bs ∈ t.acts → .readFail bs ∈ s.acts) ∧ (t.ret = some .fail → s.ret = some .fail)

/-! ### The response frame -/

/-- RSP_GET_READING with a known preamble and a matching checksum: the warning is cleared, STATUS is latched, and each value
is published exactly when its sink is configured, CO2 first (R115, R116). -/
def Obligations.ResponsePublished : Prop :=
  ∀ (s : State) (r : RspFrame), r.pre = 0xFF → r.echo = 0x86 → r.cks = checksum (rspBytes r) →
    exec (.rspGetReading r) s = .next
      { finish s with
        warning := false, wcause := .none, status := some r.stat,
        co2 := if s.cfg.co2SinkEn then some (BitVec.ofNat 16 (r.ppmHi.toNat * 256 + r.ppmLo.toNat)) else s.co2,
        temp := if s.cfg.tempSinkEn then some (BitVec.ofInt 16 ((r.temp40.toNat : Int) - 40)) else s.temp,
        pubs := s.pubs
          ++ (if s.cfg.co2SinkEn then [.co2 (BitVec.ofNat 16 (r.ppmHi.toNat * 256 + r.ppmLo.toNat))] else [])
          ++ (if s.cfg.tempSinkEn then [.temp (BitVec.ofInt 16 ((r.temp40.toNat : Int) - 40))] else []) }

/-- RSP_GET_READING with a wrong preamble: PREAMBLE whatever the checksum; nothing else is recorded (R113, R152). -/
def Obligations.ResponseWrongPreamble : Prop :=
  ∀ (s : State) (r : RspFrame), (r.pre ≠ 0xFF ∨ r.echo ≠ 0x86) →
    exec (.rspGetReading r) s = .next { finish s with warning := true, wcause := .preamble }

/-- RSP_GET_READING with a known preamble and a wrong checksum: CHECKSUM, both values recorded, nothing published (R114,
R153). -/
def Obligations.ResponseWrongChecksum : Prop :=
  ∀ (s : State) (r : RspFrame), r.pre = 0xFF → r.echo = 0x86 → r.cks ≠ checksum (rspBytes r) →
    exec (.rspGetReading r) s = .next
      { finish s with
        warning := true, wcause := .checksum, csCalc := some (checksum (rspBytes r)), csRecv := some r.cks }

/-- The extracted values: the CO2 register is the big-endian number of bytes 2 and 3, the TEMP register is byte 4, unsigned,
minus 40, between -40 and 215; nothing is truncated (R65). -/
def Obligations.ExtractedValues : Prop :=
  ∀ r : RspFrame, (co2Word r).toNat = r.ppmHi.toNat * 256 + r.ppmLo.toNat ∧
    (tempWord r).toInt = (r.temp40.toNat : Int) - 40 ∧ -40 ≤ (tempWord r).toInt ∧ (tempWord r).toInt ≤ 215

/-! ### TICK -/

/-- TICK inside the warm-up window: WARMUP, nothing else recorded, no transport primitive (R111, R150). -/
def Obligations.TickInWarmup : Prop :=
  ∀ s : State, ready s = true → s.nowMs < 2 ^ s.params.clockBits →
    s.cfg.warmupS.toNat * 1000 < 2 ^ s.params.clockBits → s.nowMs < s.cfg.warmupS.toNat * 1000 →
    exec .tick s = .next { finish s with warning := true, wcause := .warmup }

/-- TICK at or after the end of the window, answered with an accepted response: exec begins the exchange of get reading, and
the tick runs to its complete effect (R110 to R116). -/
def Obligations.TickPublishes : Prop :=
  ∀ (s : State) (r : RspFrame) (rest : List Byte), ready s = true → Quiet s → Fair s → clockInRange s = true →
    s.cfg.warmupS.toNat * 1000 ≤ s.nowMs → s.onFlush = rspBytes r ++ rest → accepted r = true →
    let t : State := startExchange getReadingFrame true (beginOp .tick s)
    exec .tick s = .next t ∧ Reaches t
      { finish (exchanged getReadingFrame s) with
        rxq := rest, giveUp := false, acts := (exchanged getReadingFrame s).acts ++ [.readOk r],
        warning := false, wcause := .none, status := some r.stat,
        co2 := if s.cfg.co2SinkEn then some (co2Word r) else s.co2,
        temp := if s.cfg.tempSinkEn then some (tempWord r) else s.temp,
        pubs := s.pubs ++ (if s.cfg.co2SinkEn then [.co2 (co2Word r)] else [])
          ++ (if s.cfg.tempSinkEn then [.temp (tempWord r)] else []) }

/-- TICK when fewer than nine bytes arrive and the transport gives up: TRANSPORT; the command was sent (R112, R151). It
holds for every value of the draw (log entry 9). That the transport gives up at once when no move of the environment comes
next (`moveAhead s = false`) is the model's DESIGN CHOICE of log entry 20, no words of R45. -/
def Obligations.TickTransportFails : Prop :=
  ∀ s : State, ready s = true → Quiet s → Fair s → clockInRange s = true → s.cfg.warmupS.toNat * 1000 ≤ s.nowMs →
    s.onFlush.length < 9 → s.params.transportBlocking = false → (s.giveUp = true ∨ moveAhead s = false) →
    let t : State := startExchange getReadingFrame true (beginOp .tick s)
    exec .tick s = .next t ∧ ∃ bs rest, s.onFlush = bs ++ rest ∧ Reaches t
      { finish (exchanged getReadingFrame s) with
        rxq := rest, giveUp := false, draws := s.draws + 1,
        acts := (exchanged getReadingFrame s).acts ++ [.readFail bs], warning := true, wcause := .transport }

/-- TICK answered with nine bytes of a wrong preamble, or of a known preamble and a wrong checksum (R113, R114). -/
def Obligations.TickRejects : Prop :=
  ∀ (s : State) (r : RspFrame) (rest : List Byte), ready s = true → Quiet s → Fair s → clockInRange s = true →
    s.cfg.warmupS.toNat * 1000 ≤ s.nowMs → s.onFlush = rspBytes r ++ rest →
    let t : State := startExchange getReadingFrame true (beginOp .tick s)
    let read : State :=
      { finish (exchanged getReadingFrame s) with
        rxq := rest, giveUp := false, acts := (exchanged getReadingFrame s).acts ++ [.readOk r] }
    exec .tick s = .next t ∧
    (r.hasPreamble = false → Reaches t { read with warning := true, wcause := .preamble }) ∧
    (r.hasPreamble = true → checksumMatches r = false → Reaches t
      { read with warning := true, wcause := .checksum, csCalc := some (checksum (rspBytes r)), csRecv := some r.cks })

/-- Every TICK that ends, whatever its environment did and however long it waited, ends in exactly one of five ways, with the
primitives the table of R120 gives: in the step that began it, with WARMUP and no primitive; or in a later step, when the record
of primitives is whole exchanges of earlier operations and then its own: the pops, all nine pushes, one flush, one read, failed
or answered. On CHECKSUM both values are recorded; on success STATUS is latched and each configured sink is given its value, CO2
first (R114 to R116). -/
def Obligations.TickEndsOneWay : Prop :=
  (∀ s t : State, ready s = true → exec .tick s = .next t → t.phase = .idle →
    t.wcause = .warmup ∧ t.warning = true ∧ t.acts = s.acts) ∧
  ∀ s t : State, SequencerInv s → InOrder s → s.op = some .tick → step s = .next t → t.phase = .idle →
    ¬ResetTaken s → ∃ (whole : List (List Act)) (ps : List Byte) (answer : Act), (∀ as ∈ whole, WholeExchange s.params as) ∧
      t.acts = whole.flatten ++ exchangeActs getReadingFrame ps ++ [answer] ∧
      match t.wcause with
      | .warmup => False
      | .transport => t.warning = true ∧ ∃ bs, answer = .readFail bs
      | .preamble => t.warning = true ∧ ∃ r, answer = .readOk r ∧ r.hasPreamble = false
      | .checksum => t.warning = true ∧ ∃ r, answer = .readOk r ∧ r.hasPreamble = true ∧ checksumMatches r = false ∧
          t.csCalc = some (checksum (rspBytes r)) ∧ t.csRecv = some r.cks
      | .none => t.warning = false ∧ ∃ r, answer = .readOk r ∧ accepted r = true ∧ t.status = some r.stat ∧
          t.co2 = (if s.cfg.co2SinkEn then some (co2Word r) else s.co2) ∧
          t.temp = (if s.cfg.tempSinkEn then some (tempWord r) else s.temp) ∧
          t.pubs = s.pubs ++ (if s.cfg.co2SinkEn then [.co2 (co2Word r)] else [])
            ++ (if s.cfg.tempSinkEn then [.temp (tempWord r)] else [])

/-- What a tick that fails leaves unchanged, in every one of its steps, and what a tick leaves unchanged while it is not over: a
step after which an operation is in progress or the warning is set keeps CO2, TEMP and STATUS, and adds no publish event;
CS_CALC and CS_RECV change only in the step in which a tick ends with CHECKSUM (R119). -/
def Obligations.FailedTickKeepsOutputs : Prop :=
  ∀ s t : State, SequencerInv s → step s = .next t → ¬ResetTaken s → (t.phase ≠ .idle ∨ t.warning = true) →
    t.co2 = s.co2 ∧ t.temp = s.temp ∧ t.status = s.status ∧ t.pubs = s.pubs ∧
      (¬(s.op = some .tick ∧ t.phase = .idle ∧ t.wcause = .checksum) → t.csCalc = s.csCalc ∧ t.csRecv = s.csRecv)

/-- The frame of the step in which TICK is taken, whichever way it goes on: BOOT_DONE, the configuration, the parameters, both
streams, the clock, the record of primitives and every value output are as before (R19, R110). What the later steps of a tick
leave alone is said of every step (StepKeepsConfigurationAndLine, FailedTickKeepsOutputs). -/
def Obligations.TickLeavesConfiguration : Prop :=
  ∀ s t : State, exec .tick s = .next t →
    t.bootDone = s.bootDone ∧ t.cfg = s.cfg ∧ t.params = s.params ∧ t.stalls = s.stalls ∧ t.floods = s.floods ∧
      t.rxq = s.rxq ∧ t.txPending = s.txPending ∧ t.wire = s.wire ∧ t.onFlush = s.onFlush ∧ t.giveUp = s.giveUp ∧
      t.draws = s.draws ∧ t.nowMs = s.nowMs ∧ t.agenda = s.agenda ∧ t.acts = s.acts ∧ t.co2 = s.co2 ∧ t.temp = s.temp ∧
      t.status = s.status ∧ t.csCalc = s.csCalc ∧ t.csRecv = s.csRecv ∧ t.pubs = s.pubs

/-- Each tick is independent of the ticks before it (R118). Two ticks taken with the same configuration, time and environment,
whatever the outputs hold, are both refused, or both end alike in the step, or go on from the same point; and from the same
point, step by step and however long they wait, they perform the same primitives, leave the environment the same, and end alike
or go on from the same point. -/
def Obligations.TickIgnoresEarlierTicks : Prop :=
  let alike (s s' t t' : State) : Prop :=
    (∃ as, t.acts = s.acts ++ as ∧ t'.acts = s'.acts ++ as) ∧ SameSurroundings t t' ∧
      ((t.phase = .idle ∧ t'.phase = .idle ∧ EndsAlike s s' t t') ∨
        (t.phase ≠ .idle ∧ t.op = some .tick ∧ SamePoint t t'))
  (∀ s s' : State, ready s = true → ready s' = true → SameSurroundings s s' →
    match exec .tick s, exec .tick s' with
    | .next t, .next t' => alike s s' t t'
    | .refused r, .refused r' => r' = r
    | _, _ => False) ∧
  (∀ s s' : State, s.phase ≠ .idle → s.op = some .tick → SamePoint s s' → ¬ResetTaken s →
    match step s, step s' with
    | .next t, .next t' => alike s s' t t'
    | .refused r, .refused r' => r' = r
    | .fault r, .fault r' => r' = r
    | _, _ => False)

/-- At or beyond the bounds of the clock the spec gives TICK no behaviour; the model refuses it by name (R170 (c), U6; log
entry 8). -/
def Obligations.TickBeyondClockRefused : Prop :=
  ∀ s : State, ready s = true →
    (2 ^ s.params.clockBits ≤ s.nowMs ∨ 2 ^ s.params.clockBits ≤ s.cfg.warmupS.toNat * 1000) →
    exec .tick s = .refused .clockOutOfRange

/-- Under the ideal sensor of 95_test_vectors.md section 4, a tick past the window publishes the sensor's measurement and
leaves RXQ empty. -/
def Obligations.IdealSensorReading : Prop :=
  ∀ (s : State) (hi lo tb st : Byte), ready s = true → Quiet s → Fair s → clockInRange s = true →
    s.cfg.warmupS.toNat * 1000 ≤ s.nowMs →
    s.onFlush = [0xFF, 0x86, hi, lo, tb, st, 0x00, 0x00, checksum [0xFF, 0x86, hi, lo, tb, st, 0x00, 0x00]] →
    NextAnd (exec .tick s) fun t => ∃ u, Reaches t u ∧
      u.phase = .idle ∧ u.warning = false ∧ u.status = some st ∧ u.rxq = [] ∧
        (s.cfg.co2SinkEn = true → u.co2 = some (hi ++ lo : BitVec 16)) ∧
        (s.cfg.tempSinkEn = true → ∃ v, u.temp = some v ∧ v.toInt = (tb.toNat : Int) - 40)

/-! ### The Command Set -/

/-- Every on-demand command, taken while nothing interferes: exec begins the exchange of its frame, and it runs to its end: the
queue is drained, its wire frame is on WIRE, the operation is over; the clock and the window play no part (R130, R139). -/
def Obligations.OnDemandCommandsComplete : Prop :=
  ∀ s : State, ready s = true → Quiet s → Fair s →
    let completes (i : Instr) (o : Op) (f : CmdFrame) : Prop :=
      exec i s = .next (startExchange f false (beginOp o s)) ∧
        Reaches (startExchange f false (beginOp o s)) (finish (exchanged f s))
    completes .recover .recover s.params.recover ∧
    completes .calibrateZero .calibrateZero s.params.calibrateZero ∧
    completes .abcEnable .abcEnable s.params.abcEnable ∧
    completes .abcDisable .abcDisable s.params.abcDisable ∧
    completes .setRange2000 (.setRange .r2000) s.params.range2000 ∧
    completes .setRange5000 (.setRange .r5000) range5000Frame ∧
    completes .setRange10000 (.setRange .r10000) s.params.range10000

/-- SET_RANGE default: no command is sent, nothing is drained, no state of the machine changes (R138). -/
def Obligations.SetRangeDefaultDoesNothing : Prop :=
  ∀ s : State, exec .setRangeDefault s = .next s

/-- The frame of the step in which an on-demand command is taken: WARNING, WCAUSE, the outputs, the configuration (RANGE and
ABC_BOOT in it), BOOT_DONE, both streams and the clock are untouched; RSP is as before or, once the operation has begun, without
a value (R24, R130, R133, R135). That its later steps write no output either is OnlyTickWritesOutputs. -/
def Obligations.OnDemandCommandsLeaveOutputs : Prop :=
  ∀ (s t : State) (i : Instr),
    i ∈ [.recover, .calibrateZero, .abcEnable, .abcDisable, .setRangeDefault, .setRange2000, .setRange5000,
      .setRange10000] →
    exec i s = .next t →
    SameOutputs s t ∧ t.bootDone = s.bootDone ∧ t.cfg = s.cfg ∧ t.params = s.params ∧ t.nowMs = s.nowMs ∧
    t.rxq = s.rxq ∧ t.txPending = s.txPending ∧ t.wire = s.wire ∧ t.onFlush = s.onFlush ∧ t.giveUp = s.giveUp ∧
    t.stalls = s.stalls ∧ t.floods = s.floods ∧ t.draws = s.draws ∧ t.agenda = s.agenda ∧ t.acts = s.acts ∧
    (t.rsp = s.rsp ∨ t.rsp = none)

/-- BOOT, taken while nothing interferes, and run to its end: the ABC command the policy names, none for "unspecified"; then,
only if BOOT_SENDS_RANGE, the configured range, none for "default"; BOOT_DONE is 1 (R140, R141). It holds for both values of the
parameter. That the two exchanges are steps of one BOOT, with no IDLE between, is the model's DESIGN CHOICE of log entry 30. -/
def Obligations.BootComplete : Prop :=
  ∀ s : State, bootable s = true → Quiet s → Fair s →
    let abc : State :=
      match s.cfg.abcBoot with
      | .unspecified => s
      | .enabled => exchanged s.params.abcEnable s
      | .disabled => exchanged s.params.abcDisable s
    let all : State :=
      if s.params.bootSendsRange then
        match s.cfg.range with
        | .default => abc
        | .r2000 => exchanged s.params.range2000 abc
        | .r5000 => exchanged range5000Frame abc
        | .r10000 => exchanged s.params.range10000 abc
      else abc
    NextAnd (exec .boot s) fun t => Reaches t { finish all with bootDone := true }

/-- The frame of the step in which BOOT is taken: it writes no flag, no output, no configuration, no stream and no clock (R140).
That its later steps write no output either is OnlyTickWritesOutputs. -/
def Obligations.BootLeavesOutputs : Prop :=
  ∀ s t : State, exec .boot s = .next t →
    SameOutputs s t ∧ t.cfg = s.cfg ∧ t.params = s.params ∧ t.nowMs = s.nowMs ∧
    t.rxq = s.rxq ∧ t.txPending = s.txPending ∧ t.wire = s.wire ∧ t.onFlush = s.onFlush ∧ t.giveUp = s.giveUp ∧
    t.stalls = s.stalls ∧ t.floods = s.floods ∧ t.draws = s.draws ∧ t.agenda = s.agenda ∧ t.acts = s.acts ∧
    (t.rsp = s.rsp ∨ t.rsp = none)

/-- SendCommand has returned and its caller goes on, in the next step of the machine's own: a tick whose read failed ends with
TRANSPORT, one whose read was answered goes on to validate (R112); BOOT sends the range if it has still to, or sets BOOT_DONE
(R140, R141); an on-demand command ends (R130). So also for an operation that has waited. That BOOT goes from FLUSH straight to
DRAIN for its range, which the table of R14 does not have, is the model's DESIGN CHOICE of log entry 30. -/
def Obligations.ReturnedExchangeGoesOn : Prop :=
  ∀ (s s1 : State) (x : SendResult), OwnStep s s1 → s.phase ≠ .idle → s.ret = some x →
    (s.op = some .tick → x = .fail → step s = .next { finish s1 with warning := true, wcause := .transport }) ∧
    (s.op = some .tick → x = .ok → step s = .next { s1 with phase := .chkPre, ret := none }) ∧
    (s.op = some .boot → s.rangeLeft = false → step s = .next { finish s1 with bootDone := true }) ∧
    (s.op = some .boot → s.rangeLeft = true → rangeFrame s.params s.cfg.range = none →
      step s = .next { finish s1 with bootDone := true }) ∧
    (∀ f, s.op = some .boot → s.rangeLeft = true → rangeFrame s.params s.cfg.range = some f →
      step s = .next (startExchange f false { s1 with rangeLeft := false })) ∧
    (s.op ≠ some .tick → s.op ≠ some .boot → step s = .next (finish s1))

/-- The requests the framer refuses change nothing: BOOT after BOOT, TICK or a command before it, anything while PHASE is
not IDLE; an `op_code` of 7 to 15 is dropped; a request made while an operation is in progress is dropped (R142). That the
machine goes on after a refused request is the model's reading (log entry 12). -/
def Obligations.RefusedRequestsDoNothing : Prop :=
  (∀ s : State, bootable s = false → exec .boot s = .next s) ∧
  (∀ (s : State) (i : Instr),
    i ∈ [.tick, .recover, .calibrateZero, .abcEnable, .abcDisable, .setRangeDefault, .setRange2000, .setRange5000,
      .setRange10000] →
    ready s = false → exec i s = .next s) ∧
  (∀ (s : State) (code : BitVec 4) (range : BitVec 2) (rest : List Event), Taken s (.request code range) rest →
    s.phase = .idle → 7 ≤ code.toNat → step s = .next { s with agenda := rest }) ∧
  (∀ (s : State) (code : BitVec 4) (range : BitVec 2) (rest : List Event), Taken s (.request code range) rest →
    s.phase ≠ .idle → step s = .next { s with agenda := rest })

/-! ### The step -/

/-- One step is at most one transport primitive (R8, D1): a step that is no reset adds one primitive to the record, or none. -/
def Obligations.OnePrimitivePerStep : Prop :=
  ∀ s t : State, step s = .next t →
    (ResetTaken s ∧ t.acts = []) ∨ (¬ResetTaken s ∧ (t.acts = s.acts ∨ ∃ a, t.acts = s.acts ++ [a]))

/-- A step of an idle machine runs the operation the host requests: the step is exec of the decoded operation on the state
with the request taken from the agenda (R36, R80, R81; the agenda is log entry 3). -/
def Obligations.StepRunsRequestedOperation : Prop :=
  ∀ (s : State) (code : BitVec 4) (range : BitVec 2) (rest : List Event) (i : Instr),
    Taken s (.request code range) rest → s.phase = .idle → decode s.params [requestWord code range] = .ok i →
    step s = exec i { s with agenda := rest }

/-- A step in an exchange runs the wire frame in CMD, and the step of a validation the response in RSP: it is exec of the
decoded frame (R14, R92, R113), unless the environment owes a move (log entries 4, 23). That these frames are fetched and decoded
as instructions is the model's own reading of the opcode table (log entries 14, 16); R57 says the framer fetches nothing. Runs
reach these states: they are those of every TICK and every command between its first step and its last. -/
def Obligations.StepRunsFrameInProgress : Prop :=
  (∀ (s s1 : State) (f : CmdFrame) (e : Bool) (i : Instr), OwnStep s s1 → owedMove s1 = none → exchanging s.phase = true →
    s.ret = none → s.cmd = some f → s.expect = some e → decode s.params (wireFrame f) = .ok i →
    (wireRow s.params i).map Prod.snd = some e → step s = exec i s1) ∧
  (∀ (s s1 : State) (r : RspFrame), OwnStep s s1 → s.phase = .chkPre → s.ret = none → s.rsp = some r →
    decode s.params (rspBytes r) = .ok (.rspGetReading r) → step s = exec (.rspGetReading r) s1)

/-- With no move of host or environment, an idle machine stays as it is (R14, R181). -/
def Obligations.IdleWithoutMovesStays : Prop :=
  ∀ s : State, RunOver s → step s = .next s

/-- The moves of the environment and of the clock, taken at their entry in the agenda: bytes arrive at the tail of RXQ (R42);
the oldest pending byte leaves to WIRE (R46); a reply, or a time-out, is armed (R81, log entry 20); the clock advances (R170).
And the move the environment owes a flush that waits: a byte leaves (R46, R47, log entry 4). Nothing else changes. -/
def Obligations.EnvironmentMoves : Prop :=
  (∀ (s : State) (rest : List Event),
    (∀ bs, Taken s (.env (.rx bs)) rest → step s = .next { s with rxq := s.rxq ++ bs, agenda := rest }) ∧
    (∀ b q, Taken s (.env .sent) rest → s.txPending = b :: q →
      step s = .next { s with txPending := q, wire := s.wire ++ [b], agenda := rest }) ∧
    (Taken s (.env .sent) rest → s.txPending = [] → step s = .next { s with agenda := rest }) ∧
    (∀ bs, Taken s (.env (.replyOnFlush bs)) rest →
      step s = .next { s with onFlush := s.onFlush ++ bs, agenda := rest }) ∧
    (Taken s (.env .giveUp) rest → step s = .next { s with giveUp := true, agenda := rest }) ∧
    (∀ d, Taken s (.env (.advance d)) rest → step s = .next { s with nowMs := s.nowMs + d, agenda := rest })) ∧
  (∀ (s s1 : State) (b : Byte) (q : List Byte), OwnStep s s1 → s.phase = .flush → s.ret = none → s.stalls = false →
    s.txPending = b :: q → step s = .next { s1 with txPending := q, wire := s.wire ++ [b] })

/-- The receive stream: no byte is lost, duplicated or reordered (R42 to R44). What RXQ held, followed by what arrives in the
step, is what the step's primitives took, followed by what RXQ holds then. Bytes arrive by a move of the environment, with the
reply armed for a flush (log entry 20), or in a flood (log entry 23), and in no other way; a reset leaves RXQ alone (R182). -/
def Obligations.ReceiveStreamKept : Prop :=
  ∀ s t : State, step s = .next t →
    (ResetTaken s → t.rxq = s.rxq) ∧
    (¬ResetTaken s → ∃ as arrived, t.acts = s.acts ++ as ∧ s.rxq ++ arrived = takenBytes as ++ t.rxq ∧
      (arrived = [] ∨ (∃ rest, Taken s (.env (.rx arrived)) rest) ∨ (as = [.flush] ∧ arrived = s.onFlush) ∨
        (s.phase = .drain ∧ s.rxq = [] ∧ as = [] ∧ ∃ b, s.floods = some b ∧ arrived = [b])))

/-- What a run keeps, step by step, unless the step is a reset: the configuration once BOOT is requested (R19), BOOT_DONE
once it is set (R18), the order of time (R170); and, reset or not, the parameters, and every byte on WIRE (R46, R182). -/
def Obligations.StepKeepsConfigurationAndLine : Prop :=
  ∀ s t : State, step s = .next t →
    t.params = s.params ∧ s.wire <+: t.wire ∧ s.wire ++ s.txPending <+: t.wire ++ t.txPending ∧
      (¬ResetTaken s →
        s.nowMs ≤ t.nowMs ∧ (s.bootDone = true → t.bootDone = true) ∧
          (s.bootDone = true ∨ s.phase ≠ .idle → t.cfg = s.cfg))

/-- The line carries every pushed byte, in order, and nothing else: what a step adds to WIRE and TX_PENDING together is what
it pushed (R46). A reset adds nothing (R182). -/
def Obligations.LineCarriesEveryPush : Prop :=
  ∀ s t : State, step s = .next t →
    (ResetTaken s → t.wire = s.wire ∧ t.txPending = s.txPending) ∧
    (¬ResetTaken s → ∃ as, t.acts = s.acts ++ as ∧ t.wire ++ t.txPending = s.wire ++ s.txPending ++ pushes as)

/-- The host writes the configuration before BOOT; after BOOT, and while an operation runs, the model refuses the write, since
the host has no such move (R19, U9; log entry 13). -/
def Obligations.ConfigurationWrittenBeforeBoot : Prop :=
  ∀ (s : State) (c : Configuration) (rest : List Event), Taken s (.config c) rest →
    (s.phase = .idle → s.bootDone = false → step s = .next { s with cfg := c, agenda := rest }) ∧
    (s.bootDone = true ∨ s.phase ≠ .idle → step s = .refused .configNotWritable)

/-- A reset, at a line of the script or in the middle of an operation, from IDLE, from a wait, or from any other phase: the
registers are at the values of R35 at once; RXQ, the bytes already pushed, WIRE and the transport's disposition stay (R180,
R182). The configuration's values after reset are the model's choice (log entry 10). -/
def Obligations.ResetInAnyPhase : Prop :=
  ∀ (s : State) (rest : List Event), Taken s .reset rest →
    NextAnd (step s) fun t =>
      t.phase = .idle ∧ t.bootDone = false ∧ NoTransients t ∧ t.warning = false ∧ t.wcause = .none ∧ t.co2 = none ∧
        t.temp = none ∧ t.status = none ∧ t.csCalc = none ∧ t.csRecv = none ∧ t.pubs = [] ∧ t.nowMs = 0 ∧
        t.rxq = s.rxq ∧ t.txPending = s.txPending ∧ t.wire = s.wire ∧ t.onFlush = s.onFlush ∧ t.giveUp = s.giveUp ∧
        t.stalls = s.stalls ∧ t.floods = s.floods ∧ t.params = s.params ∧ t.agenda = rest

/-- The state after reset, as the table of R35 and R180 give it. -/
def Obligations.ResetState : Prop :=
  State.reset.phase = .idle ∧ State.reset.bootDone = false ∧ State.reset.warning = false ∧ State.reset.wcause = .none ∧
    State.reset.nowMs = 0 ∧ State.reset.co2 = none ∧ State.reset.temp = none ∧ State.reset.status = none ∧
    State.reset.csCalc = none ∧ State.reset.csRecv = none ∧ State.reset.cmd = none ∧ State.reset.rsp = none ∧
    State.reset.op = none ∧ State.reset.expect = none ∧ State.reset.bcnt = none ∧ State.reset.csum = none ∧
    State.reset.pubs = [] ∧ State.reset.txPending = [] ∧ State.reset.wire = []

/-- The strobes of the ports, step by step (R36, informative). `op_done`: in a step of an operation in progress exactly when it
comes back to IDLE, and never at a reset; in a step of an idle machine exactly when a request was taken and its operation ended in
that step. `rx_pop` and `tx_valid` with the byte or bytes of the primitive; none for a flush, and none for a failed read, which is
the model's reading (log entry 22). `tx_flush` exactly in the step of the last push, before the flush returns, and
`rx_read9_start` exactly in the step in which the flush returns and a read begins, before it is answered. A publish strobe is
given exactly for a publish event of the step, with its value, which the output then holds. -/
def Obligations.PortStrobes : Prop :=
  ∀ s t : State, step s = .next t →
    ((outPorts t).opReady = true ↔ t.phase = .idle) ∧
    (ResetTaken s → strobes s t = ⟨false, [], false, none, false, none, none⟩) ∧
    (¬ResetTaken s → s.phase ≠ .idle → ((strobes s t).opDone = true ↔ t.phase = .idle)) ∧
    (s.phase = .idle → ((strobes s t).opDone = true ↔ t.phase = .idle ∧ ∃ code range rest i,
      Taken s (.request code range) rest ∧ decodeRequest code range = .ok i ∧
        (if i = .boot then s.bootDone = false else s.bootDone = true))) ∧
    (∀ b, t.acts = s.acts ++ [.pop b] → (strobes s t).rxPop = [b] ∧ (strobes s t).txData = none) ∧
    (∀ b, t.acts = s.acts ++ [.push b] → (strobes s t).txData = some b ∧ (strobes s t).rxPop = []) ∧
    (∀ r, t.acts = s.acts ++ [.readOk r] → (strobes s t).rxPop = rspBytes r ∧ (strobes s t).txData = none) ∧
    (t.acts = s.acts ++ [.flush] → (strobes s t).rxPop = [] ∧ (strobes s t).txData = none) ∧
    (∀ bs, t.acts = s.acts ++ [.readFail bs] → (strobes s t).rxPop = [] ∧ (strobes s t).txData = none) ∧
    (t.acts = s.acts → (strobes s t).rxPop = [] ∧ (strobes s t).txData = none) ∧
    ((strobes s t).txFlush = true ↔ t.phase = .flush ∧ ∃ b, t.acts = s.acts ++ [.push b]) ∧
    ((strobes s t).rxRead9Start = true ↔ t.phase = .rxWait ∧ t.acts = s.acts ++ [.flush]) ∧
    (¬ResetTaken s → ∃ ps, t.pubs = s.pubs ++ ps ∧
      (∀ v, (strobes s t).co2Pub = some v ↔ .co2 v ∈ ps) ∧ (∀ v, (strobes s t).tempPub = some v ↔ .temp v ∈ ps) ∧
      (∀ v, .co2 v ∈ ps → t.co2 = some v) ∧ (∀ v, .temp v ∈ ps → t.temp = some v))

/-! ### Waiting for ever -/

/-- With a transport that blocks and a sensor that stays silent, a tick comes to wait in RXWAIT, and nothing the framer does ends
the wait (R193). -/
def Obligations.SilentSensorHangsBlockingRead : Prop :=
  ∀ s : State, ready s = true → s.agenda = [] → Fair s → clockInRange s = true → s.cfg.warmupS.toNat * 1000 ≤ s.nowMs →
    s.params.transportBlocking = true → s.onFlush.length < 9 →
    NextAnd (exec .tick s) fun t => ∃ u, Reaches t u ∧ u.phase = .rxWait ∧ Stuck u ∧ step u = .next u

/-- A lower layer that never empties brings every command to wait in FLUSH, and nothing the framer does ends the wait (R47,
R193). -/
def Obligations.StalledLowerLayerHangsFlush : Prop :=
  ∀ (s : State) (i : Instr),
    i ∈ [.recover, .calibrateZero, .abcEnable, .abcDisable, .setRange2000, .setRange5000, .setRange10000] →
    ready s = true → s.agenda = [] → s.stalls = true → s.floods = none →
    NextAnd (exec i s) fun t => ∃ u, Reaches t u ∧ u.phase = .flush ∧ Stuck u ∧ step u = .next u

/-- An environment that keeps RXQ non-empty keeps the framer in DRAIN (R93 (c), R194): a step pops the byte, the environment
supplies the next, and the framer stands where it stood. It is not stuck: the run is endless (R202, U14). -/
def Obligations.FloodedDrainNeverEnds : Prop :=
  ∀ (s : State) (f : CmdFrame) (e : Bool) (b : Byte), s.phase = .drain → s.ret = none → s.cmd = some f →
    s.expect = some e → s.floods = some b → s.agenda = [] → s.rxq = [b] →
    ¬Stuck s ∧ NextAnd (step s) fun t =>
      t = { s with rxq := [], acts := s.acts ++ [.pop b] } ∧ ¬Stuck t ∧
        step t = .next { s with acts := s.acts ++ [.pop b] }

/-- When the agenda is empty, a step changes something unless the run is over or stuck; and a stuck framer waits in RXWAIT or in
FLUSH, and stays (R202). -/
def Obligations.RestsOnlyWhenOverOrStuck : Prop :=
  (∀ s : State, SequencerInv s → s.agenda = [] → step s = .next s → RunOver s ∨ Stuck s) ∧
  (∀ s : State, SequencerInv s → Stuck s → (s.phase = .rxWait ∨ s.phase = .flush) ∧ step s = .next s)

/-! ### Invariants of the machine -/

/-- Every step keeps the invariant of the sequencer, the flag and the life cycle (R10 to R18, R24, R25, R142). -/
def Obligations.StepKeepsSequencerInv : Prop :=
  ∀ s t : State, SequencerInv s → step s = .next t → SequencerInv t

/-- The invariants hold after reset. -/
def Obligations.ResetMeetsInvariants : Prop :=
  SequencerInv State.reset ∧ InOrder State.reset ∧ FramesOnly State.reset ∧ PublishesTrusted State.reset

/-- No reachable phase reads a transient register that holds no value: under the invariant a step never faults (R11, R12,
U3). -/
def Obligations.NoAbsentRegisterIsRead : Prop :=
  ∀ (s : State) (r : Fault), SequencerInv s → step s ≠ .fault r

/-- The framer emits whole wire frames of the command table and nothing else: every step keeps it (R34 (a), R61, R69). -/
def Obligations.StepKeepsFramesOnly : Prop :=
  ∀ s t : State, SequencerInv s → FramesOnly s → step s = .next t → FramesOnly t

/-- A value is published only from a response that was read and passed both checks: every step keeps it (R34 (b), (c)). -/
def Obligations.StepKeepsPublishesTrusted : Prop :=
  ∀ s t : State, SequencerInv s → PublishesTrusted s → step s = .next t → PublishesTrusted t

/-- Only a TICK, or a reset, writes the flag and the outputs: whatever else a step does, WARNING, WCAUSE, CO2, TEMP, STATUS,
CS_CALC, CS_RECV and the publish events stay (R24, R34, R130, R140). -/
def Obligations.OnlyTickWritesOutputs : Prop :=
  ∀ s t : State, SequencerInv s → step s = .next t →
    s.op = some .tick ∨ (s.phase = .idle ∧ s.bootDone = true ∧ RequestTaken 1 s) ∨ ResetTaken s ∨ SameOutputs s t

/-- The warning flag is cleared in one place only: a step that clears it latched the status byte of a response that was read
and accepted, or it was a reset (R157). -/
def Obligations.OnlySuccessClearsWarning : Prop :=
  ∀ s t : State, SequencerInv s → PublishesTrusted s → step s = .next t → s.warning = true → t.warning = false →
    ResetTaken s ∨ ∃ r, .readOk r ∈ t.acts ∧ accepted r = true ∧ t.status = some r.stat ∧ t.wcause = .none ∧
      t.phase = .idle
end

