-- ==== Sys2Proof/Laws/State.lean ====
section
/-! SUPPORT. One lemma per field per named update of the state: later proofs rewrite with them and unfold no record. -/

namespace Sys2Proof.Machine

@[simp] theorem setWarning_phase (c : Cause) (s : State) : (setWarning c s).phase = s.phase := rfl
@[simp] theorem setWarning_op (c : Cause) (s : State) : (setWarning c s).op = s.op := rfl
@[simp] theorem setWarning_cmd (c : Cause) (s : State) : (setWarning c s).cmd = s.cmd := rfl
@[simp] theorem setWarning_rsp (c : Cause) (s : State) : (setWarning c s).rsp = s.rsp := rfl
@[simp] theorem setWarning_csum (c : Cause) (s : State) : (setWarning c s).csum = s.csum := rfl
@[simp] theorem setWarning_bcnt (c : Cause) (s : State) : (setWarning c s).bcnt = s.bcnt := rfl
@[simp] theorem setWarning_expect (c : Cause) (s : State) : (setWarning c s).expect = s.expect := rfl
@[simp] theorem setWarning_bootDone (c : Cause) (s : State) : (setWarning c s).bootDone = s.bootDone := rfl
@[simp] theorem setWarning_cfg (c : Cause) (s : State) : (setWarning c s).cfg = s.cfg := rfl
@[simp] theorem setWarning_params (c : Cause) (s : State) : (setWarning c s).params = s.params := rfl
@[simp] theorem setWarning_warning (c : Cause) (s : State) : (setWarning c s).warning = true := rfl
@[simp] theorem setWarning_wcause (c : Cause) (s : State) : (setWarning c s).wcause = c := rfl
@[simp] theorem setWarning_co2 (c : Cause) (s : State) : (setWarning c s).co2 = s.co2 := rfl
@[simp] theorem setWarning_temp (c : Cause) (s : State) : (setWarning c s).temp = s.temp := rfl
@[simp] theorem setWarning_status (c : Cause) (s : State) : (setWarning c s).status = s.status := rfl
@[simp] theorem setWarning_csCalc (c : Cause) (s : State) : (setWarning c s).csCalc = s.csCalc := rfl
@[simp] theorem setWarning_csRecv (c : Cause) (s : State) : (setWarning c s).csRecv = s.csRecv := rfl
@[simp] theorem setWarning_pubs (c : Cause) (s : State) : (setWarning c s).pubs = s.pubs := rfl
@[simp] theorem setWarning_nowMs (c : Cause) (s : State) : (setWarning c s).nowMs = s.nowMs := rfl
@[simp] theorem setWarning_rxq (c : Cause) (s : State) : (setWarning c s).rxq = s.rxq := rfl
@[simp] theorem setWarning_txPending (c : Cause) (s : State) : (setWarning c s).txPending = s.txPending := rfl
@[simp] theorem setWarning_wire (c : Cause) (s : State) : (setWarning c s).wire = s.wire := rfl
@[simp] theorem setWarning_ret (c : Cause) (s : State) : (setWarning c s).ret = s.ret := rfl
@[simp] theorem setWarning_rangeLeft (c : Cause) (s : State) : (setWarning c s).rangeLeft = s.rangeLeft := rfl
@[simp] theorem setWarning_onFlush (c : Cause) (s : State) : (setWarning c s).onFlush = s.onFlush := rfl
@[simp] theorem setWarning_giveUp (c : Cause) (s : State) : (setWarning c s).giveUp = s.giveUp := rfl
@[simp] theorem setWarning_stalls (c : Cause) (s : State) : (setWarning c s).stalls = s.stalls := rfl
@[simp] theorem setWarning_floods (c : Cause) (s : State) : (setWarning c s).floods = s.floods := rfl
@[simp] theorem setWarning_draws (c : Cause) (s : State) : (setWarning c s).draws = s.draws := rfl
@[simp] theorem setWarning_agenda (c : Cause) (s : State) : (setWarning c s).agenda = s.agenda := rfl
@[simp] theorem setWarning_acts (c : Cause) (s : State) : (setWarning c s).acts = s.acts := rfl

@[simp] theorem clearWarning_phase (s : State) : (clearWarning s).phase = s.phase := rfl
@[simp] theorem clearWarning_op (s : State) : (clearWarning s).op = s.op := rfl
@[simp] theorem clearWarning_cmd (s : State) : (clearWarning s).cmd = s.cmd := rfl
@[simp] theorem clearWarning_rsp (s : State) : (clearWarning s).rsp = s.rsp := rfl
@[simp] theorem clearWarning_csum (s : State) : (clearWarning s).csum = s.csum := rfl
@[simp] theorem clearWarning_bcnt (s : State) : (clearWarning s).bcnt = s.bcnt := rfl
@[simp] theorem clearWarning_expect (s : State) : (clearWarning s).expect = s.expect := rfl
@[simp] theorem clearWarning_bootDone (s : State) : (clearWarning s).bootDone = s.bootDone := rfl
@[simp] theorem clearWarning_cfg (s : State) : (clearWarning s).cfg = s.cfg := rfl
@[simp] theorem clearWarning_params (s : State) : (clearWarning s).params = s.params := rfl
@[simp] theorem clearWarning_warning (s : State) : (clearWarning s).warning = false := rfl
@[simp] theorem clearWarning_wcause (s : State) : (clearWarning s).wcause = .none := rfl
@[simp] theorem clearWarning_co2 (s : State) : (clearWarning s).co2 = s.co2 := rfl
@[simp] theorem clearWarning_temp (s : State) : (clearWarning s).temp = s.temp := rfl
@[simp] theorem clearWarning_status (s : State) : (clearWarning s).status = s.status := rfl
@[simp] theorem clearWarning_csCalc (s : State) : (clearWarning s).csCalc = s.csCalc := rfl
@[simp] theorem clearWarning_csRecv (s : State) : (clearWarning s).csRecv = s.csRecv := rfl
@[simp] theorem clearWarning_pubs (s : State) : (clearWarning s).pubs = s.pubs := rfl
@[simp] theorem clearWarning_nowMs (s : State) : (clearWarning s).nowMs = s.nowMs := rfl
@[simp] theorem clearWarning_rxq (s : State) : (clearWarning s).rxq = s.rxq := rfl
@[simp] theorem clearWarning_txPending (s : State) : (clearWarning s).txPending = s.txPending := rfl
@[simp] theorem clearWarning_wire (s : State) : (clearWarning s).wire = s.wire := rfl
@[simp] theorem clearWarning_ret (s : State) : (clearWarning s).ret = s.ret := rfl
@[simp] theorem clearWarning_rangeLeft (s : State) : (clearWarning s).rangeLeft = s.rangeLeft := rfl
@[simp] theorem clearWarning_onFlush (s : State) : (clearWarning s).onFlush = s.onFlush := rfl
@[simp] theorem clearWarning_giveUp (s : State) : (clearWarning s).giveUp = s.giveUp := rfl
@[simp] theorem clearWarning_stalls (s : State) : (clearWarning s).stalls = s.stalls := rfl
@[simp] theorem clearWarning_floods (s : State) : (clearWarning s).floods = s.floods := rfl
@[simp] theorem clearWarning_draws (s : State) : (clearWarning s).draws = s.draws := rfl
@[simp] theorem clearWarning_agenda (s : State) : (clearWarning s).agenda = s.agenda := rfl
@[simp] theorem clearWarning_acts (s : State) : (clearWarning s).acts = s.acts := rfl

@[simp] theorem popByte_phase (b : Byte) (q : List Byte) (s : State) : (popByte b q s).phase = s.phase := rfl
@[simp] theorem popByte_op (b : Byte) (q : List Byte) (s : State) : (popByte b q s).op = s.op := rfl
@[simp] theorem popByte_cmd (b : Byte) (q : List Byte) (s : State) : (popByte b q s).cmd = s.cmd := rfl
@[simp] theorem popByte_rsp (b : Byte) (q : List Byte) (s : State) : (popByte b q s).rsp = s.rsp := rfl
@[simp] theorem popByte_csum (b : Byte) (q : List Byte) (s : State) : (popByte b q s).csum = s.csum := rfl
@[simp] theorem popByte_bcnt (b : Byte) (q : List Byte) (s : State) : (popByte b q s).bcnt = s.bcnt := rfl
@[simp] theorem popByte_expect (b : Byte) (q : List Byte) (s : State) : (popByte b q s).expect = s.expect := rfl
@[simp] theorem popByte_bootDone (b : Byte) (q : List Byte) (s : State) : (popByte b q s).bootDone = s.bootDone := rfl
@[simp] theorem popByte_cfg (b : Byte) (q : List Byte) (s : State) : (popByte b q s).cfg = s.cfg := rfl
@[simp] theorem popByte_params (b : Byte) (q : List Byte) (s : State) : (popByte b q s).params = s.params := rfl
@[simp] theorem popByte_warning (b : Byte) (q : List Byte) (s : State) : (popByte b q s).warning = s.warning := rfl
@[simp] theorem popByte_wcause (b : Byte) (q : List Byte) (s : State) : (popByte b q s).wcause = s.wcause := rfl
@[simp] theorem popByte_co2 (b : Byte) (q : List Byte) (s : State) : (popByte b q s).co2 = s.co2 := rfl
@[simp] theorem popByte_temp (b : Byte) (q : List Byte) (s : State) : (popByte b q s).temp = s.temp := rfl
@[simp] theorem popByte_status (b : Byte) (q : List Byte) (s : State) : (popByte b q s).status = s.status := rfl
@[simp] theorem popByte_csCalc (b : Byte) (q : List Byte) (s : State) : (popByte b q s).csCalc = s.csCalc := rfl
@[simp] theorem popByte_csRecv (b : Byte) (q : List Byte) (s : State) : (popByte b q s).csRecv = s.csRecv := rfl
@[simp] theorem popByte_pubs (b : Byte) (q : List Byte) (s : State) : (popByte b q s).pubs = s.pubs := rfl
@[simp] theorem popByte_nowMs (b : Byte) (q : List Byte) (s : State) : (popByte b q s).nowMs = s.nowMs := rfl
@[simp] theorem popByte_rxq (b : Byte) (q : List Byte) (s : State) : (popByte b q s).rxq = q := rfl
@[simp] theorem popByte_txPending (b : Byte) (q : List Byte) (s : State) : (popByte b q s).txPending = s.txPending := rfl
@[simp] theorem popByte_wire (b : Byte) (q : List Byte) (s : State) : (popByte b q s).wire = s.wire := rfl
@[simp] theorem popByte_ret (b : Byte) (q : List Byte) (s : State) : (popByte b q s).ret = s.ret := rfl
@[simp] theorem popByte_rangeLeft (b : Byte) (q : List Byte) (s : State) : (popByte b q s).rangeLeft = s.rangeLeft := rfl
@[simp] theorem popByte_onFlush (b : Byte) (q : List Byte) (s : State) : (popByte b q s).onFlush = s.onFlush := rfl
@[simp] theorem popByte_giveUp (b : Byte) (q : List Byte) (s : State) : (popByte b q s).giveUp = s.giveUp := rfl
@[simp] theorem popByte_stalls (b : Byte) (q : List Byte) (s : State) : (popByte b q s).stalls = s.stalls := rfl
@[simp] theorem popByte_floods (b : Byte) (q : List Byte) (s : State) : (popByte b q s).floods = s.floods := rfl
@[simp] theorem popByte_draws (b : Byte) (q : List Byte) (s : State) : (popByte b q s).draws = s.draws := rfl
@[simp] theorem popByte_agenda (b : Byte) (q : List Byte) (s : State) : (popByte b q s).agenda = s.agenda := rfl
@[simp] theorem popByte_acts (b : Byte) (q : List Byte) (s : State) : (popByte b q s).acts = s.acts ++ [.pop b] := rfl

@[simp] theorem pushByte_phase (b : Byte) (s : State) : (pushByte b s).phase = s.phase := rfl
@[simp] theorem pushByte_op (b : Byte) (s : State) : (pushByte b s).op = s.op := rfl
@[simp] theorem pushByte_cmd (b : Byte) (s : State) : (pushByte b s).cmd = s.cmd := rfl
@[simp] theorem pushByte_rsp (b : Byte) (s : State) : (pushByte b s).rsp = s.rsp := rfl
@[simp] theorem pushByte_csum (b : Byte) (s : State) : (pushByte b s).csum = s.csum := rfl
@[simp] theorem pushByte_bcnt (b : Byte) (s : State) : (pushByte b s).bcnt = s.bcnt := rfl
@[simp] theorem pushByte_expect (b : Byte) (s : State) : (pushByte b s).expect = s.expect := rfl
@[simp] theorem pushByte_bootDone (b : Byte) (s : State) : (pushByte b s).bootDone = s.bootDone := rfl
@[simp] theorem pushByte_cfg (b : Byte) (s : State) : (pushByte b s).cfg = s.cfg := rfl
@[simp] theorem pushByte_params (b : Byte) (s : State) : (pushByte b s).params = s.params := rfl
@[simp] theorem pushByte_warning (b : Byte) (s : State) : (pushByte b s).warning = s.warning := rfl
@[simp] theorem pushByte_wcause (b : Byte) (s : State) : (pushByte b s).wcause = s.wcause := rfl
@[simp] theorem pushByte_co2 (b : Byte) (s : State) : (pushByte b s).co2 = s.co2 := rfl
@[simp] theorem pushByte_temp (b : Byte) (s : State) : (pushByte b s).temp = s.temp := rfl
@[simp] theorem pushByte_status (b : Byte) (s : State) : (pushByte b s).status = s.status := rfl
@[simp] theorem pushByte_csCalc (b : Byte) (s : State) : (pushByte b s).csCalc = s.csCalc := rfl
@[simp] theorem pushByte_csRecv (b : Byte) (s : State) : (pushByte b s).csRecv = s.csRecv := rfl
@[simp] theorem pushByte_pubs (b : Byte) (s : State) : (pushByte b s).pubs = s.pubs := rfl
@[simp] theorem pushByte_nowMs (b : Byte) (s : State) : (pushByte b s).nowMs = s.nowMs := rfl
@[simp] theorem pushByte_rxq (b : Byte) (s : State) : (pushByte b s).rxq = s.rxq := rfl
@[simp] theorem pushByte_txPending (b : Byte) (s : State) : (pushByte b s).txPending = s.txPending ++ [b] := rfl
@[simp] theorem pushByte_wire (b : Byte) (s : State) : (pushByte b s).wire = s.wire := rfl
@[simp] theorem pushByte_ret (b : Byte) (s : State) : (pushByte b s).ret = s.ret := rfl
@[simp] theorem pushByte_rangeLeft (b : Byte) (s : State) : (pushByte b s).rangeLeft = s.rangeLeft := rfl
@[simp] theorem pushByte_onFlush (b : Byte) (s : State) : (pushByte b s).onFlush = s.onFlush := rfl
@[simp] theorem pushByte_giveUp (b : Byte) (s : State) : (pushByte b s).giveUp = s.giveUp := rfl
@[simp] theorem pushByte_stalls (b : Byte) (s : State) : (pushByte b s).stalls = s.stalls := rfl
@[simp] theorem pushByte_floods (b : Byte) (s : State) : (pushByte b s).floods = s.floods := rfl
@[simp] theorem pushByte_draws (b : Byte) (s : State) : (pushByte b s).draws = s.draws := rfl
@[simp] theorem pushByte_agenda (b : Byte) (s : State) : (pushByte b s).agenda = s.agenda := rfl
@[simp] theorem pushByte_acts (b : Byte) (s : State) : (pushByte b s).acts = s.acts ++ [.push b] := rfl

@[simp] theorem flushReturns_phase (s : State) : (flushReturns s).phase = s.phase := rfl
@[simp] theorem flushReturns_op (s : State) : (flushReturns s).op = s.op := rfl
@[simp] theorem flushReturns_cmd (s : State) : (flushReturns s).cmd = s.cmd := rfl
@[simp] theorem flushReturns_rsp (s : State) : (flushReturns s).rsp = s.rsp := rfl
@[simp] theorem flushReturns_csum (s : State) : (flushReturns s).csum = s.csum := rfl
@[simp] theorem flushReturns_bcnt (s : State) : (flushReturns s).bcnt = s.bcnt := rfl
@[simp] theorem flushReturns_expect (s : State) : (flushReturns s).expect = s.expect := rfl
@[simp] theorem flushReturns_bootDone (s : State) : (flushReturns s).bootDone = s.bootDone := rfl
@[simp] theorem flushReturns_cfg (s : State) : (flushReturns s).cfg = s.cfg := rfl
@[simp] theorem flushReturns_params (s : State) : (flushReturns s).params = s.params := rfl
@[simp] theorem flushReturns_warning (s : State) : (flushReturns s).warning = s.warning := rfl
@[simp] theorem flushReturns_wcause (s : State) : (flushReturns s).wcause = s.wcause := rfl
@[simp] theorem flushReturns_co2 (s : State) : (flushReturns s).co2 = s.co2 := rfl
@[simp] theorem flushReturns_temp (s : State) : (flushReturns s).temp = s.temp := rfl
@[simp] theorem flushReturns_status (s : State) : (flushReturns s).status = s.status := rfl
@[simp] theorem flushReturns_csCalc (s : State) : (flushReturns s).csCalc = s.csCalc := rfl
@[simp] theorem flushReturns_csRecv (s : State) : (flushReturns s).csRecv = s.csRecv := rfl
@[simp] theorem flushReturns_pubs (s : State) : (flushReturns s).pubs = s.pubs := rfl
@[simp] theorem flushReturns_nowMs (s : State) : (flushReturns s).nowMs = s.nowMs := rfl
@[simp] theorem flushReturns_rxq (s : State) : (flushReturns s).rxq = s.rxq ++ s.onFlush := rfl
@[simp] theorem flushReturns_txPending (s : State) : (flushReturns s).txPending = s.txPending := rfl
@[simp] theorem flushReturns_wire (s : State) : (flushReturns s).wire = s.wire := rfl
@[simp] theorem flushReturns_ret (s : State) : (flushReturns s).ret = s.ret := rfl
@[simp] theorem flushReturns_rangeLeft (s : State) : (flushReturns s).rangeLeft = s.rangeLeft := rfl
@[simp] theorem flushReturns_onFlush (s : State) : (flushReturns s).onFlush = [] := rfl
@[simp] theorem flushReturns_giveUp (s : State) : (flushReturns s).giveUp = s.giveUp := rfl
@[simp] theorem flushReturns_stalls (s : State) : (flushReturns s).stalls = s.stalls := rfl
@[simp] theorem flushReturns_floods (s : State) : (flushReturns s).floods = s.floods := rfl
@[simp] theorem flushReturns_draws (s : State) : (flushReturns s).draws = s.draws := rfl
@[simp] theorem flushReturns_agenda (s : State) : (flushReturns s).agenda = s.agenda := rfl
@[simp] theorem flushReturns_acts (s : State) : (flushReturns s).acts = s.acts ++ [.flush] := rfl

@[simp] theorem readTakes_phase (r : RspFrame) (q : List Byte) (s : State) : (readTakes r q s).phase = s.phase := rfl
@[simp] theorem readTakes_op (r : RspFrame) (q : List Byte) (s : State) : (readTakes r q s).op = s.op := rfl
@[simp] theorem readTakes_cmd (r : RspFrame) (q : List Byte) (s : State) : (readTakes r q s).cmd = s.cmd := rfl
@[simp] theorem readTakes_rsp (r : RspFrame) (q : List Byte) (s : State) : (readTakes r q s).rsp = some r := rfl
@[simp] theorem readTakes_csum (r : RspFrame) (q : List Byte) (s : State) : (readTakes r q s).csum = s.csum := rfl
@[simp] theorem readTakes_bcnt (r : RspFrame) (q : List Byte) (s : State) : (readTakes r q s).bcnt = s.bcnt := rfl
@[simp] theorem readTakes_expect (r : RspFrame) (q : List Byte) (s : State) : (readTakes r q s).expect = s.expect := rfl
@[simp] theorem readTakes_bootDone (r : RspFrame) (q : List Byte) (s : State) : (readTakes r q s).bootDone = s.bootDone := rfl
@[simp] theorem readTakes_cfg (r : RspFrame) (q : List Byte) (s : State) : (readTakes r q s).cfg = s.cfg := rfl
@[simp] theorem readTakes_params (r : RspFrame) (q : List Byte) (s : State) : (readTakes r q s).params = s.params := rfl
@[simp] theorem readTakes_warning (r : RspFrame) (q : List Byte) (s : State) : (readTakes r q s).warning = s.warning := rfl
@[simp] theorem readTakes_wcause (r : RspFrame) (q : List Byte) (s : State) : (readTakes r q s).wcause = s.wcause := rfl
@[simp] theorem readTakes_co2 (r : RspFrame) (q : List Byte) (s : State) : (readTakes r q s).co2 = s.co2 := rfl
@[simp] theorem readTakes_temp (r : RspFrame) (q : List Byte) (s : State) : (readTakes r q s).temp = s.temp := rfl
@[simp] theorem readTakes_status (r : RspFrame) (q : List Byte) (s : State) : (readTakes r q s).status = s.status := rfl
@[simp] theorem readTakes_csCalc (r : RspFrame) (q : List Byte) (s : State) : (readTakes r q s).csCalc = s.csCalc := rfl
@[simp] theorem readTakes_csRecv (r : RspFrame) (q : List Byte) (s : State) : (readTakes r q s).csRecv = s.csRecv := rfl
@[simp] theorem readTakes_pubs (r : RspFrame) (q : List Byte) (s : State) : (readTakes r q s).pubs = s.pubs := rfl
@[simp] theorem readTakes_nowMs (r : RspFrame) (q : List Byte) (s : State) : (readTakes r q s).nowMs = s.nowMs := rfl
@[simp] theorem readTakes_rxq (r : RspFrame) (q : List Byte) (s : State) : (readTakes r q s).rxq = q := rfl
@[simp] theorem readTakes_txPending (r : RspFrame) (q : List Byte) (s : State) : (readTakes r q s).txPending = s.txPending := rfl
@[simp] theorem readTakes_wire (r : RspFrame) (q : List Byte) (s : State) : (readTakes r q s).wire = s.wire := rfl
@[simp] theorem readTakes_ret (r : RspFrame) (q : List Byte) (s : State) : (readTakes r q s).ret = some .ok := rfl
@[simp] theorem readTakes_rangeLeft (r : RspFrame) (q : List Byte) (s : State) : (readTakes r q s).rangeLeft = s.rangeLeft := rfl
@[simp] theorem readTakes_onFlush (r : RspFrame) (q : List Byte) (s : State) : (readTakes r q s).onFlush = s.onFlush := rfl
@[simp] theorem readTakes_giveUp (r : RspFrame) (q : List Byte) (s : State) : (readTakes r q s).giveUp = false := rfl
@[simp] theorem readTakes_stalls (r : RspFrame) (q : List Byte) (s : State) : (readTakes r q s).stalls = s.stalls := rfl
@[simp] theorem readTakes_floods (r : RspFrame) (q : List Byte) (s : State) : (readTakes r q s).floods = s.floods := rfl
@[simp] theorem readTakes_draws (r : RspFrame) (q : List Byte) (s : State) : (readTakes r q s).draws = s.draws := rfl
@[simp] theorem readTakes_agenda (r : RspFrame) (q : List Byte) (s : State) : (readTakes r q s).agenda = s.agenda := rfl
@[simp] theorem readTakes_acts (r : RspFrame) (q : List Byte) (s : State) : (readTakes r q s).acts = s.acts ++ [.readOk r] := rfl

@[simp] theorem readFails_phase (s : State) : (readFails s).phase = s.phase := rfl
@[simp] theorem readFails_op (s : State) : (readFails s).op = s.op := rfl
@[simp] theorem readFails_cmd (s : State) : (readFails s).cmd = s.cmd := rfl
@[simp] theorem readFails_rsp (s : State) : (readFails s).rsp = none := rfl
@[simp] theorem readFails_csum (s : State) : (readFails s).csum = s.csum := rfl
@[simp] theorem readFails_bcnt (s : State) : (readFails s).bcnt = s.bcnt := rfl
@[simp] theorem readFails_expect (s : State) : (readFails s).expect = s.expect := rfl
@[simp] theorem readFails_bootDone (s : State) : (readFails s).bootDone = s.bootDone := rfl
@[simp] theorem readFails_cfg (s : State) : (readFails s).cfg = s.cfg := rfl
@[simp] theorem readFails_params (s : State) : (readFails s).params = s.params := rfl
@[simp] theorem readFails_warning (s : State) : (readFails s).warning = s.warning := rfl
@[simp] theorem readFails_wcause (s : State) : (readFails s).wcause = s.wcause := rfl
@[simp] theorem readFails_co2 (s : State) : (readFails s).co2 = s.co2 := rfl
@[simp] theorem readFails_temp (s : State) : (readFails s).temp = s.temp := rfl
@[simp] theorem readFails_status (s : State) : (readFails s).status = s.status := rfl
@[simp] theorem readFails_csCalc (s : State) : (readFails s).csCalc = s.csCalc := rfl
@[simp] theorem readFails_csRecv (s : State) : (readFails s).csRecv = s.csRecv := rfl
@[simp] theorem readFails_pubs (s : State) : (readFails s).pubs = s.pubs := rfl
@[simp] theorem readFails_nowMs (s : State) : (readFails s).nowMs = s.nowMs := rfl
@[simp] theorem readFails_rxq (s : State) : (readFails s).rxq = s.rxq.drop (failedReadCount s) := rfl
@[simp] theorem readFails_txPending (s : State) : (readFails s).txPending = s.txPending := rfl
@[simp] theorem readFails_wire (s : State) : (readFails s).wire = s.wire := rfl
@[simp] theorem readFails_ret (s : State) : (readFails s).ret = some .fail := rfl
@[simp] theorem readFails_rangeLeft (s : State) : (readFails s).rangeLeft = s.rangeLeft := rfl
@[simp] theorem readFails_onFlush (s : State) : (readFails s).onFlush = s.onFlush := rfl
@[simp] theorem readFails_giveUp (s : State) : (readFails s).giveUp = false := rfl
@[simp] theorem readFails_stalls (s : State) : (readFails s).stalls = s.stalls := rfl
@[simp] theorem readFails_floods (s : State) : (readFails s).floods = s.floods := rfl
@[simp] theorem readFails_draws (s : State) : (readFails s).draws = s.draws + 1 := rfl
@[simp] theorem readFails_agenda (s : State) : (readFails s).agenda = s.agenda := rfl
@[simp] theorem readFails_acts (s : State) : (readFails s).acts = s.acts ++ [.readFail (s.rxq.take (failedReadCount s))] := rfl

@[simp] theorem startExchange_phase (f : CmdFrame) (e : Bool) (s : State) : (startExchange f e s).phase = .drain := rfl
@[simp] theorem startExchange_op (f : CmdFrame) (e : Bool) (s : State) : (startExchange f e s).op = s.op := rfl
@[simp] theorem startExchange_cmd (f : CmdFrame) (e : Bool) (s : State) : (startExchange f e s).cmd = some f := rfl
@[simp] theorem startExchange_rsp (f : CmdFrame) (e : Bool) (s : State) : (startExchange f e s).rsp = s.rsp := rfl
@[simp] theorem startExchange_csum (f : CmdFrame) (e : Bool) (s : State) : (startExchange f e s).csum = none := rfl
@[simp] theorem startExchange_bcnt (f : CmdFrame) (e : Bool) (s : State) : (startExchange f e s).bcnt = none := rfl
@[simp] theorem startExchange_expect (f : CmdFrame) (e : Bool) (s : State) : (startExchange f e s).expect = some e := rfl
@[simp] theorem startExchange_bootDone (f : CmdFrame) (e : Bool) (s : State) : (startExchange f e s).bootDone = s.bootDone := rfl
@[simp] theorem startExchange_cfg (f : CmdFrame) (e : Bool) (s : State) : (startExchange f e s).cfg = s.cfg := rfl
@[simp] theorem startExchange_params (f : CmdFrame) (e : Bool) (s : State) : (startExchange f e s).params = s.params := rfl
@[simp] theorem startExchange_warning (f : CmdFrame) (e : Bool) (s : State) : (startExchange f e s).warning = s.warning := rfl
@[simp] theorem startExchange_wcause (f : CmdFrame) (e : Bool) (s : State) : (startExchange f e s).wcause = s.wcause := rfl
@[simp] theorem startExchange_co2 (f : CmdFrame) (e : Bool) (s : State) : (startExchange f e s).co2 = s.co2 := rfl
@[simp] theorem startExchange_temp (f : CmdFrame) (e : Bool) (s : State) : (startExchange f e s).temp = s.temp := rfl
@[simp] theorem startExchange_status (f : CmdFrame) (e : Bool) (s : State) : (startExchange f e s).status = s.status := rfl
@[simp] theorem startExchange_csCalc (f : CmdFrame) (e : Bool) (s : State) : (startExchange f e s).csCalc = s.csCalc := rfl
@[simp] theorem startExchange_csRecv (f : CmdFrame) (e : Bool) (s : State) : (startExchange f e s).csRecv = s.csRecv := rfl
@[simp] theorem startExchange_pubs (f : CmdFrame) (e : Bool) (s : State) : (startExchange f e s).pubs = s.pubs := rfl
@[simp] theorem startExchange_nowMs (f : CmdFrame) (e : Bool) (s : State) : (startExchange f e s).nowMs = s.nowMs := rfl
@[simp] theorem startExchange_rxq (f : CmdFrame) (e : Bool) (s : State) : (startExchange f e s).rxq = s.rxq := rfl
@[simp] theorem startExchange_txPending (f : CmdFrame) (e : Bool) (s : State) : (startExchange f e s).txPending = s.txPending :=
    rfl
@[simp] theorem startExchange_wire (f : CmdFrame) (e : Bool) (s : State) : (startExchange f e s).wire = s.wire := rfl
@[simp] theorem startExchange_ret (f : CmdFrame) (e : Bool) (s : State) : (startExchange f e s).ret = none := rfl
@[simp] theorem startExchange_rangeLeft (f : CmdFrame) (e : Bool) (s : State) : (startExchange f e s).rangeLeft = s.rangeLeft :=
    rfl
@[simp] theorem startExchange_onFlush (f : CmdFrame) (e : Bool) (s : State) : (startExchange f e s).onFlush = s.onFlush := rfl
@[simp] theorem startExchange_giveUp (f : CmdFrame) (e : Bool) (s : State) : (startExchange f e s).giveUp = s.giveUp := rfl
@[simp] theorem startExchange_stalls (f : CmdFrame) (e : Bool) (s : State) : (startExchange f e s).stalls = s.stalls := rfl
@[simp] theorem startExchange_floods (f : CmdFrame) (e : Bool) (s : State) : (startExchange f e s).floods = s.floods := rfl
@[simp] theorem startExchange_draws (f : CmdFrame) (e : Bool) (s : State) : (startExchange f e s).draws = s.draws := rfl
@[simp] theorem startExchange_agenda (f : CmdFrame) (e : Bool) (s : State) : (startExchange f e s).agenda = s.agenda := rfl
@[simp] theorem startExchange_acts (f : CmdFrame) (e : Bool) (s : State) : (startExchange f e s).acts = s.acts := rfl

@[simp] theorem finish_phase (s : State) : (finish s).phase = .idle := rfl
@[simp] theorem finish_op (s : State) : (finish s).op = none := rfl
@[simp] theorem finish_cmd (s : State) : (finish s).cmd = none := rfl
@[simp] theorem finish_rsp (s : State) : (finish s).rsp = none := rfl
@[simp] theorem finish_csum (s : State) : (finish s).csum = none := rfl
@[simp] theorem finish_bcnt (s : State) : (finish s).bcnt = none := rfl
@[simp] theorem finish_expect (s : State) : (finish s).expect = none := rfl
@[simp] theorem finish_bootDone (s : State) : (finish s).bootDone = s.bootDone := rfl
@[simp] theorem finish_cfg (s : State) : (finish s).cfg = s.cfg := rfl
@[simp] theorem finish_params (s : State) : (finish s).params = s.params := rfl
@[simp] theorem finish_warning (s : State) : (finish s).warning = s.warning := rfl
@[simp] theorem finish_wcause (s : State) : (finish s).wcause = s.wcause := rfl
@[simp] theorem finish_co2 (s : State) : (finish s).co2 = s.co2 := rfl
@[simp] theorem finish_temp (s : State) : (finish s).temp = s.temp := rfl
@[simp] theorem finish_status (s : State) : (finish s).status = s.status := rfl
@[simp] theorem finish_csCalc (s : State) : (finish s).csCalc = s.csCalc := rfl
@[simp] theorem finish_csRecv (s : State) : (finish s).csRecv = s.csRecv := rfl
@[simp] theorem finish_pubs (s : State) : (finish s).pubs = s.pubs := rfl
@[simp] theorem finish_nowMs (s : State) : (finish s).nowMs = s.nowMs := rfl
@[simp] theorem finish_rxq (s : State) : (finish s).rxq = s.rxq := rfl
@[simp] theorem finish_txPending (s : State) : (finish s).txPending = s.txPending := rfl
@[simp] theorem finish_wire (s : State) : (finish s).wire = s.wire := rfl
@[simp] theorem finish_ret (s : State) : (finish s).ret = none := rfl
@[simp] theorem finish_rangeLeft (s : State) : (finish s).rangeLeft = false := rfl
@[simp] theorem finish_onFlush (s : State) : (finish s).onFlush = s.onFlush := rfl
@[simp] theorem finish_giveUp (s : State) : (finish s).giveUp = s.giveUp := rfl
@[simp] theorem finish_stalls (s : State) : (finish s).stalls = s.stalls := rfl
@[simp] theorem finish_floods (s : State) : (finish s).floods = s.floods := rfl
@[simp] theorem finish_draws (s : State) : (finish s).draws = s.draws := rfl
@[simp] theorem finish_agenda (s : State) : (finish s).agenda = s.agenda := rfl
@[simp] theorem finish_acts (s : State) : (finish s).acts = s.acts := rfl

@[simp] theorem beginOp_phase (o : Op) (s : State) : (beginOp o s).phase = .idle := rfl
@[simp] theorem beginOp_op (o : Op) (s : State) : (beginOp o s).op = some o := rfl
@[simp] theorem beginOp_cmd (o : Op) (s : State) : (beginOp o s).cmd = none := rfl
@[simp] theorem beginOp_rsp (o : Op) (s : State) : (beginOp o s).rsp = none := rfl
@[simp] theorem beginOp_csum (o : Op) (s : State) : (beginOp o s).csum = none := rfl
@[simp] theorem beginOp_bcnt (o : Op) (s : State) : (beginOp o s).bcnt = none := rfl
@[simp] theorem beginOp_expect (o : Op) (s : State) : (beginOp o s).expect = none := rfl
@[simp] theorem beginOp_bootDone (o : Op) (s : State) : (beginOp o s).bootDone = s.bootDone := rfl
@[simp] theorem beginOp_cfg (o : Op) (s : State) : (beginOp o s).cfg = s.cfg := rfl
@[simp] theorem beginOp_params (o : Op) (s : State) : (beginOp o s).params = s.params := rfl
@[simp] theorem beginOp_warning (o : Op) (s : State) : (beginOp o s).warning = s.warning := rfl
@[simp] theorem beginOp_wcause (o : Op) (s : State) : (beginOp o s).wcause = s.wcause := rfl
@[simp] theorem beginOp_co2 (o : Op) (s : State) : (beginOp o s).co2 = s.co2 := rfl
@[simp] theorem beginOp_temp (o : Op) (s : State) : (beginOp o s).temp = s.temp := rfl
@[simp] theorem beginOp_status (o : Op) (s : State) : (beginOp o s).status = s.status := rfl
@[simp] theorem beginOp_csCalc (o : Op) (s : State) : (beginOp o s).csCalc = s.csCalc := rfl
@[simp] theorem beginOp_csRecv (o : Op) (s : State) : (beginOp o s).csRecv = s.csRecv := rfl
@[simp] theorem beginOp_pubs (o : Op) (s : State) : (beginOp o s).pubs = s.pubs := rfl
@[simp] theorem beginOp_nowMs (o : Op) (s : State) : (beginOp o s).nowMs = s.nowMs := rfl
@[simp] theorem beginOp_rxq (o : Op) (s : State) : (beginOp o s).rxq = s.rxq := rfl
@[simp] theorem beginOp_txPending (o : Op) (s : State) : (beginOp o s).txPending = s.txPending := rfl
@[simp] theorem beginOp_wire (o : Op) (s : State) : (beginOp o s).wire = s.wire := rfl
@[simp] theorem beginOp_ret (o : Op) (s : State) : (beginOp o s).ret = none := rfl
@[simp] theorem beginOp_rangeLeft (o : Op) (s : State) : (beginOp o s).rangeLeft = false := rfl
@[simp] theorem beginOp_onFlush (o : Op) (s : State) : (beginOp o s).onFlush = s.onFlush := rfl
@[simp] theorem beginOp_giveUp (o : Op) (s : State) : (beginOp o s).giveUp = s.giveUp := rfl
@[simp] theorem beginOp_stalls (o : Op) (s : State) : (beginOp o s).stalls = s.stalls := rfl
@[simp] theorem beginOp_floods (o : Op) (s : State) : (beginOp o s).floods = s.floods := rfl
@[simp] theorem beginOp_draws (o : Op) (s : State) : (beginOp o s).draws = s.draws := rfl
@[simp] theorem beginOp_agenda (o : Op) (s : State) : (beginOp o s).agenda = s.agenda := rfl
@[simp] theorem beginOp_acts (o : Op) (s : State) : (beginOp o s).acts = s.acts := rfl

@[simp] theorem resetFramer_phase (s : State) : (resetFramer s).phase = .idle := rfl
@[simp] theorem resetFramer_op (s : State) : (resetFramer s).op = none := rfl
@[simp] theorem resetFramer_cmd (s : State) : (resetFramer s).cmd = none := rfl
@[simp] theorem resetFramer_rsp (s : State) : (resetFramer s).rsp = none := rfl
@[simp] theorem resetFramer_csum (s : State) : (resetFramer s).csum = none := rfl
@[simp] theorem resetFramer_bcnt (s : State) : (resetFramer s).bcnt = none := rfl
@[simp] theorem resetFramer_expect (s : State) : (resetFramer s).expect = none := rfl
@[simp] theorem resetFramer_bootDone (s : State) : (resetFramer s).bootDone = false := rfl
@[simp] theorem resetFramer_cfg (s : State) : (resetFramer s).cfg = resetConfiguration := rfl
@[simp] theorem resetFramer_params (s : State) : (resetFramer s).params = s.params := rfl
@[simp] theorem resetFramer_warning (s : State) : (resetFramer s).warning = false := rfl
@[simp] theorem resetFramer_wcause (s : State) : (resetFramer s).wcause = .none := rfl
@[simp] theorem resetFramer_co2 (s : State) : (resetFramer s).co2 = none := rfl
@[simp] theorem resetFramer_temp (s : State) : (resetFramer s).temp = none := rfl
@[simp] theorem resetFramer_status (s : State) : (resetFramer s).status = none := rfl
@[simp] theorem resetFramer_csCalc (s : State) : (resetFramer s).csCalc = none := rfl
@[simp] theorem resetFramer_csRecv (s : State) : (resetFramer s).csRecv = none := rfl
@[simp] theorem resetFramer_pubs (s : State) : (resetFramer s).pubs = [] := rfl
@[simp] theorem resetFramer_nowMs (s : State) : (resetFramer s).nowMs = 0 := rfl
@[simp] theorem resetFramer_rxq (s : State) : (resetFramer s).rxq = s.rxq := rfl
@[simp] theorem resetFramer_txPending (s : State) : (resetFramer s).txPending = s.txPending := rfl
@[simp] theorem resetFramer_wire (s : State) : (resetFramer s).wire = s.wire := rfl
@[simp] theorem resetFramer_ret (s : State) : (resetFramer s).ret = none := rfl
@[simp] theorem resetFramer_rangeLeft (s : State) : (resetFramer s).rangeLeft = false := rfl
@[simp] theorem resetFramer_onFlush (s : State) : (resetFramer s).onFlush = s.onFlush := rfl
@[simp] theorem resetFramer_giveUp (s : State) : (resetFramer s).giveUp = s.giveUp := rfl
@[simp] theorem resetFramer_stalls (s : State) : (resetFramer s).stalls = s.stalls := rfl
@[simp] theorem resetFramer_floods (s : State) : (resetFramer s).floods = s.floods := rfl
@[simp] theorem resetFramer_draws (s : State) : (resetFramer s).draws = s.draws := rfl
@[simp] theorem resetFramer_agenda (s : State) : (resetFramer s).agenda = s.agenda := rfl
@[simp] theorem resetFramer_acts (s : State) : (resetFramer s).acts = [] := rfl

end Sys2Proof.Machine
end

