-- ==== Sys2Proof/Laws/Exchange.lean ====
section
/-! SUPPORT. What the shared operations can do, said once: the environment's moves, the transport primitives, a step of an
exchange (`exchangeStep_next`), and the records of the primitives. -/

namespace Sys2Proof.Machine

open Sys2Proof

/-! ### The environment's moves -/

/-- What the environment's moves leave alone: everything the framer owns. -/
structure EnvOnly (s t : State) : Prop where
  rest : t = { s with nowMs := t.nowMs, rxq := t.rxq, txPending := t.txPending, wire := t.wire, onFlush := t.onFlush,
                      giveUp := t.giveUp }
  line : t.wire ++ t.txPending = s.wire ++ s.txPending
  sent : s.wire <+: t.wire
  clock : s.nowMs ≤ t.nowMs
  pending : s.txPending = [] → t.txPending = []

theorem envMove_only (m : EnvMove) (s : State) : EnvOnly s (envMove m s) := by
  cases m with
  | sent =>
    rcases hp : s.txPending with _ | ⟨b, rest⟩
    · have h : envMove .sent s = s := by simp [envMove, hp]
      rw [h]; exact ⟨rfl, rfl, List.prefix_refl _, le_refl _, id⟩
    · constructor <;> simp [envMove, hp]
  | _ => constructor <;> simp [envMove]

/-- Bytes arrive by the move `rx` alone. -/
theorem envMove_rxq (m : EnvMove) (s : State) :
    (envMove m s).rxq = s.rxq ∨ ∃ bs, m = .rx bs ∧ (envMove m s).rxq = s.rxq ++ bs := by
  cases m with
  | sent => left; simp only [envMove]; split <;> rfl
  | rx bs => exact .inr ⟨bs, rfl, rfl⟩
  | _ => exact .inl rfl

/-- The registers the environment's moves leave alone. -/
theorem EnvOnly.regs {s t : State} (h : EnvOnly s t) :
    t.phase = s.phase ∧ t.op = s.op ∧ t.cmd = s.cmd ∧ t.rsp = s.rsp ∧ t.csum = s.csum ∧ t.bcnt = s.bcnt ∧
      t.expect = s.expect ∧ t.ret = s.ret ∧ t.rangeLeft = s.rangeLeft ∧ t.bootDone = s.bootDone ∧ t.cfg = s.cfg ∧
      t.params = s.params ∧ t.draws = s.draws ∧ t.acts = s.acts ∧ t.agenda = s.agenda ∧ t.stalls = s.stalls ∧
      t.floods = s.floods ∧ SameOutputs s t := by
  unfold SameOutputs; rw [h.rest]; simp

/-! ### The records -/

theorem pushes_append (a b : List Act) : pushes (a ++ b) = pushes a ++ pushes b := by
  induction a with
  | nil => rfl
  | cons x a ih => cases x <;> simp [pushes, ih]

@[simp] theorem pushes_pops (l : List Byte) : pushes (l.map .pop) = [] := by
  induction l with
  | nil => rfl
  | cons b l ih => exact ih

@[simp] theorem pushes_pushes (l : List Byte) : pushes (l.map .push) = l := by
  induction l with
  | nil => rfl
  | cons b l ih => simp [pushes, ih]

@[simp] theorem pushes_exchangeActs (f : CmdFrame) (ps : List Byte) : pushes (exchangeActs f ps) = wireFrame f := by
  simp [exchangeActs, pushes_append, pushes]

theorem takenBytes_append (a b : List Act) : takenBytes (a ++ b) = takenBytes a ++ takenBytes b :=
  List.flatMap_append

/-! ### Nine bytes -/

theorem takeResponse_some {q rest : List Byte} {r : RspFrame} :
    takeResponse q = some (r, rest) ↔ q = rspBytes r ++ rest := by
  constructor
  · intro h
    unfold takeResponse at h
    split at h
    · cases h; rfl
    · cases h
  · rintro rfl; rfl

theorem takeResponse_none {q : List Byte} : takeResponse q = none ↔ q.length < 9 := by
  unfold takeResponse
  split
  · simp
  · next h =>
    simp only [true_iff]
    by_contra hl
    match q, h with
    | b0 :: b1 :: b2 :: b3 :: b4 :: b5 :: b6 :: b7 :: b8 :: rest, h => exact h _ _ _ _ _ _ _ _ _ _ rfl
    | [], _ | [_], _ | [_, _], _ | [_, _, _], _ | [_, _, _, _], _ | [_, _, _, _, _], _ | [_, _, _, _, _, _], _
    | [_, _, _, _, _, _, _], _ | [_, _, _, _, _, _, _, _], _ => simp at hl

theorem cmdBytes_getElem? {f : CmdFrame} {n : Nat} : (cmdBytes f)[n]? = none ↔ 8 ≤ n := by
  rw [List.getElem?_eq_none_iff]; rfl

/-- A push adds its byte to the running sum, but for byte 0 (R90, R94). -/
theorem partialSum_succ {f : CmdFrame} {n : Nat} {b : Byte} (h : (cmdBytes f)[n]? = some b) :
    (if n = 0 then partialSum f n else add8 (partialSum f n) b) = partialSum f (n + 1) := by
  rcases f with ⟨_, _, _, _, _, _, _, _⟩
  rcases n with _ | _ | _ | _ | _ | _ | _ | _ | n <;> simp [cmdBytes] at h <;> subst h <;> simp [partialSum, cmdBytes]

/-- After eight pushes the running sum is that of the whole frame (R90). -/
theorem checksum_partialSum {f : CmdFrame} {n : Nat} (h : 8 ≤ n) :
    checksumOfSum (partialSum f n) = checksum (cmdBytes f) := by
  have : (cmdBytes f).take n = cmdBytes f := List.take_of_length_le (by simpa [cmdBytes] using h)
  rw [partialSum, this]; rfl

/-- The counter of pushes does not wrap (R15). -/
theorem bcnt_succ {i : BitVec 4} (h : i.toNat < 8) : (i + 1).toNat = i.toNat + 1 := by
  have : (1 : BitVec 4).toNat = 1 := rfl
  rw [BitVec.toNat_add]; omega

/-! ### A step of an exchange -/

/-- Everything a step of the exchange of `f` can do (R93 to R97): at most one transport primitive. -/
inductive ExchangeTo (f : CmdFrame) (e : Bool) (s : State) : State → Prop
  | pops (b : Byte) (q : List Byte) (hp : s.phase = .drain) (hq : s.rxq = b :: q) : ExchangeTo f e s (popByte b q s)
  | drained (hp : s.phase = .drain) (hq : s.rxq = []) :
      ExchangeTo f e s { s with phase := .tx, bcnt := some 0, csum := some 0 }
  | pushes (i : BitVec 4) (c b : Byte) (hp : s.phase = .tx) (hi : s.bcnt = some i) (hc : s.csum = some c)
      (hb : (cmdBytes f)[i.toNat]? = some b) :
      ExchangeTo f e s { pushByte b s with bcnt := some (i + 1), csum := some (if i = 0 then c else add8 c b) }
  | pushesSum (i : BitVec 4) (c : Byte) (hp : s.phase = .tx) (hi : s.bcnt = some i) (hc : s.csum = some c)
      (hb : 8 ≤ i.toNat) :
      ExchangeTo f e s { pushByte (checksumOfSum c) s with phase := .flush, bcnt := none, csum := none }
  | flushWaits (hp : s.phase = .flush) (ht : s.txPending ≠ []) : ExchangeTo f e s s
  | flushed (hp : s.phase = .flush) (ht : s.txPending = []) (he : e = false) :
      ExchangeTo f e s { flushReturns s with ret := some .ok }
  | reads (hp : s.phase = .flush) (ht : s.txPending = []) (he : e = true) :
      ExchangeTo f e s { flushReturns s with phase := .rxWait }
  | answered (r : RspFrame) (q : List Byte) (hp : s.phase = .rxWait) (hq : s.rxq = rspBytes r ++ q) :
      ExchangeTo f e s (readTakes r q s)
  | readWaits (hp : s.phase = .rxWait) (hq : s.rxq.length < 9) (hw : readWaits s = true) : ExchangeTo f e s s
  | failed (hp : s.phase = .rxWait) (hq : s.rxq.length < 9) (hw : Machine.readWaits s = false) :
      ExchangeTo f e s (readFails s)

theorem exchangeStep_next {f : CmdFrame} {e : Bool} {s t : State} (hx : exchanging s.phase = true)
    (h : exchangeStep f e s = .next t) : ExchangeTo f e s t := by
  unfold exchangeStep at h
  split at h
  · next hp =>
    cases h; unfold drainStep; split
    · exact .pops _ _ hp ‹_›
    · exact .drained hp ‹_›
  · next hp =>
    split at h
    · next i c hi hc =>
      cases h; unfold txStep; split
      · exact .pushes i c _ hp hi hc ‹_›
      · exact .pushesSum i c hp hi hc (cmdBytes_getElem?.1 ‹_›)
    · cases h
    · cases h
  · next hp =>
    cases h; unfold flushStep; split
    · next ht => cases e; exact .flushed hp ht rfl; exact .reads hp ht rfl
    · exact .flushWaits hp ‹_›
  · next hp =>
    cases h; unfold readStep; split
    · exact .answered _ _ hp (takeResponse_some.1 ‹_›)
    · next hq =>
      split
      · exact .readWaits hp (takeResponse_none.1 hq) ‹_›
      · next hw => exact .failed hp (takeResponse_none.1 hq) (by simpa using hw)
  · rcases hp : s.phase <;> simp_all [exchanging]

/-- What a step of an exchange leaves alone, with the primitives it performed. -/
structure ExchangeOnly (s t : State) (as : List Act) : Prop where
  rest : t = { s with phase := t.phase, rsp := t.rsp, csum := t.csum, bcnt := t.bcnt, rxq := t.rxq,
                      txPending := t.txPending, ret := t.ret, onFlush := t.onFlush, giveUp := t.giveUp,
                      draws := t.draws, acts := t.acts }
  acts : t.acts = s.acts ++ as
  one : as = [] ∨ ∃ a, as = [a]
  line : t.txPending = s.txPending ++ Sys2Proof.pushes as
  queue : (t.rxq = s.rxq.drop (takenBytes as).length ∧ takenBytes as <+: s.rxq) ∨
    (as = [.flush] ∧ t.rxq = s.rxq ++ s.onFlush)
  busy : exchanging t.phase = true

theorem ExchangeTo.only {f : CmdFrame} {e : Bool} {s t : State} (h : ExchangeTo f e s t) :
    ∃ as, ExchangeOnly s t as := by
  cases h with
  | pops b q hp hq =>
    exact ⟨[.pop b], rfl, rfl, .inr ⟨_, rfl⟩, by simp [Sys2Proof.pushes],
      .inl ⟨by simp [takenBytes, bytesTaken, hq], by simp [takenBytes, bytesTaken, hq]⟩, by simp [hp, exchanging]⟩
  | drained => exact ⟨[], rfl, by simp, .inl rfl, by simp [Sys2Proof.pushes], .inl (by simp [takenBytes]), rfl⟩
  | pushes i c b hp =>
    exact ⟨[.push b], rfl, rfl, .inr ⟨_, rfl⟩, by simp [Sys2Proof.pushes],
      .inl (by simp [takenBytes, bytesTaken]), by simp [hp, exchanging]⟩
  | pushesSum i c hp =>
    exact ⟨[.push _], rfl, rfl, .inr ⟨_, rfl⟩, by simp [Sys2Proof.pushes],
      .inl (by simp [takenBytes, bytesTaken]), rfl⟩
  | flushWaits hp =>
    exact ⟨[], rfl, by simp, .inl rfl, by simp [Sys2Proof.pushes], .inl (by simp [takenBytes]), by simp [hp, exchanging]⟩
  | flushed hp =>
    exact ⟨[.flush], rfl, rfl, .inr ⟨_, rfl⟩, by simp [Sys2Proof.pushes], .inr ⟨rfl, rfl⟩, by simp [hp, exchanging]⟩
  | reads hp =>
    exact ⟨[.flush], rfl, rfl, .inr ⟨_, rfl⟩, by simp [Sys2Proof.pushes], .inr ⟨rfl, rfl⟩, rfl⟩
  | answered r q hp hq =>
    exact ⟨[.readOk r], rfl, rfl, .inr ⟨_, rfl⟩, by simp [Sys2Proof.pushes],
      .inl ⟨by simp [takenBytes, bytesTaken, hq], by simp [takenBytes, bytesTaken, hq]⟩, by simp [hp, exchanging]⟩
  | readWaits hp =>
    exact ⟨[], rfl, by simp, .inl rfl, by simp [Sys2Proof.pushes], .inl (by simp [takenBytes]), by simp [hp, exchanging]⟩
  | failed hp =>
    refine ⟨[.readFail (s.rxq.take (failedReadCount s))], rfl, rfl, .inr ⟨_, rfl⟩, by simp [Sys2Proof.pushes],
      .inl ⟨?_, by simp [takenBytes, bytesTaken, List.take_prefix]⟩, by simp [hp, exchanging]⟩
    have : failedReadCount s ≤ s.rxq.length := Nat.lt_succ_iff.1 (Nat.mod_lt _ (Nat.succ_pos _))
    simp [takenBytes, bytesTaken, Nat.min_eq_left this]

/-- The registers a step of an exchange leaves alone. -/
theorem ExchangeOnly.regs {s t : State} {as : List Act} (h : ExchangeOnly s t as) :
    t.op = s.op ∧ t.cmd = s.cmd ∧ t.expect = s.expect ∧ t.rangeLeft = s.rangeLeft ∧ t.bootDone = s.bootDone ∧
      t.cfg = s.cfg ∧ t.params = s.params ∧ t.nowMs = s.nowMs ∧ t.wire = s.wire ∧ t.agenda = s.agenda ∧
      t.stalls = s.stalls ∧ t.floods = s.floods ∧ SameOutputs s t := by
  unfold SameOutputs; rw [h.rest]; simp

end Sys2Proof.Machine
end

