-- ==== Sys2Proof/Laws/Operations.lean ====
section
/-! SUPPORT. What the operations and the step can do, said once: the validator (`checkPreamble_cases`, `latch_eq`), a request
(`exec_request`), the framer's own step (`resume_next`), and every step of the machine (`step_next`). -/

namespace Sys2Proof.Machine

open Sys2Proof

/-! ### The validator -/

/-- The three ways the validator goes on (R113, R114). -/
theorem checkPreamble_cases (r : RspFrame) (s : State) :
    (r.hasPreamble = false ∧ checkPreamble r s = warn .preamble s) ∨
    (r.hasPreamble = true ∧ checksumMatches r = false ∧ checkPreamble r s =
      warn .checksum { s with phase := .chkSum, csCalc := some (checksum (rspBytes r)), csRecv := some r.cks }) ∨
    (r.hasPreamble = true ∧ checksumMatches r = true ∧ checkPreamble r s = latch r { s with phase := .latch }) := by
  rcases h1 : r.hasPreamble <;> rcases h2 : checksumMatches r <;> simp [checkPreamble, checkSum, h1, h2]

/-- LATCH as one update of the state (R115, R116). -/
theorem latch_eq (r : RspFrame) (s : State) : latch r s = { finish s with
    warning := false, wcause := .none, status := some r.stat,
    co2 := if s.cfg.co2SinkEn then some (co2Word r) else s.co2,
    temp := if s.cfg.tempSinkEn then some (tempWord r) else s.temp,
    pubs := s.pubs ++ (if s.cfg.co2SinkEn then [.co2 (co2Word r)] else [])
      ++ (if s.cfg.tempSinkEn then [.temp (tempWord r)] else []) } := by
  rcases hx : s.cfg.co2SinkEn <;> rcases hy : s.cfg.tempSinkEn <;>
    simp [latch, publishTemp, publishCo2, clearWarning, finish, hx, hy]

/-- Everything the validator leaves alone: an operation ends, only the flag and the value outputs may change. -/
theorem checkPreamble_only (r : RspFrame) (s : State) :
    checkPreamble r s = { finish s with
      warning := (checkPreamble r s).warning, wcause := (checkPreamble r s).wcause, co2 := (checkPreamble r s).co2,
      temp := (checkPreamble r s).temp, status := (checkPreamble r s).status, csCalc := (checkPreamble r s).csCalc,
      csRecv := (checkPreamble r s).csRecv, pubs := (checkPreamble r s).pubs } := by
  rcases checkPreamble_cases r s with ⟨-, h⟩ | ⟨-, -, h⟩ | ⟨-, -, h⟩ <;> rw [h]
  · rfl
  · rfl
  · rw [latch_eq]; rfl

/-! ### The framer's own step -/

/-- Everything the framer's own step of an operation in progress can do. -/
inductive ResumeTo (s : State) : State → Prop
  | tickFails (hr : s.ret = some .fail) (ho : s.op = some .tick) : ResumeTo s (warn .transport s)
  | tickReads (hr : s.ret = some .ok) (ho : s.op = some .tick) : ResumeTo s { s with phase := .chkPre, ret := none }
  | bootSends (f : CmdFrame) (x : SendResult) (hr : s.ret = some x) (ho : s.op = some .boot) (hl : s.rangeLeft = true)
      (hf : rangeFrame s.params s.cfg.range = some f) : ResumeTo s (startExchange f false { s with rangeLeft := false })
  | bootEnds (x : SendResult) (hr : s.ret = some x) (ho : s.op = some .boot) : ResumeTo s (bootEnd s)
  | commandEnds (x : SendResult) (hr : s.ret = some x) (ht : s.op ≠ some .tick) (hb : s.op ≠ some .boot) :
      ResumeTo s (finish s)
  | gate (t : State) (hp : s.phase = .gate) (h : tickGate s = .next t) : ResumeTo s t
  | validates (r : RspFrame) (hr : s.ret = none) (hp : s.phase = .chkPre) (hs : s.rsp = some r) :
      ResumeTo s (checkPreamble r s)
  | sums (r : RspFrame) (hp : s.phase = .chkSum) : ResumeTo s (checkSum r s)
  | latches (r : RspFrame) (hp : s.phase = .latch) : ResumeTo s (latch r s)
  | exchanges (f : CmdFrame) (e : Bool) (t : State) (hr : s.ret = none) (hx : exchanging s.phase = true)
      (hc : s.cmd = some f) (he : s.expect = some e) (h : ExchangeTo f e s t) : ResumeTo s t

theorem bootRange_cases (s : State) :
    (∃ f, s.rangeLeft = true ∧ rangeFrame s.params s.cfg.range = some f ∧
      bootRange s = startExchange f false { s with rangeLeft := false }) ∨ bootRange s = bootEnd s := by
  unfold bootRange; split
  · split
    · exact .inr rfl
    · exact .inl ⟨_, ‹_›, ‹_›, rfl⟩
  · exact .inr rfl

theorem resume_next {s t : State} (hp : s.phase ≠ .idle) (h : resume s = .next t) : ResumeTo s t := by
  unfold resume at h
  split at h
  · next x hr =>
    cases h; unfold returned; split
    · next ho => cases x; exact .tickReads hr ho; exact .tickFails hr ho
    · next ho =>
      rcases bootRange_cases s with ⟨f, h1, h2, h3⟩ | h3 <;> rw [h3]
      · exact .bootSends f x hr ho h1 h2
      · exact .bootEnds x hr ho
    · next h1 h2 => exact .commandEnds x hr h1 h2
  · next hr =>
    split at h
    · exact absurd ‹_› hp
    · exact .gate t ‹_› h
    · next hp => split at h; cases h; exact .validates _ hr hp ‹_›; cases h
    · next hp => split at h; cases h; exact .sums _ hp; cases h
    · next hp => split at h; cases h; exact .latches _ hp; cases h
    · next h1 h2 h3 h4 h5 =>
      have hx : exchanging s.phase = true := by rcases hp : s.phase <;> simp_all [exchanging]
      split at h
      · next hc he => exact .exchanges _ _ t hr hx hc he (exchangeStep_next hx h)
      · cases h
      · cases h

/-! ### Instructions -/

theorem exec_wireRow {s : State} {i : Instr} {f : CmdFrame} {e : Bool} (h : wireRow s.params i = some (f, e)) :
    exec i s = sendCommand f e s := by
  cases i <;> simp only [wireRow, Option.some.injEq, Prod.mk.injEq, reduceCtorEq] at h <;> obtain ⟨rfl, rfl⟩ := h <;> rfl

theorem lookupFrame_row {p : Params} {f : CmdFrame} {i : Instr} (h : lookupFrame f (wireTable p) = some i) :
    (wireRow p i).map Prod.fst = some f := by
  simp only [lookupFrame, wireTable] at h
  split_ifs at h <;> cases h <;> simp_all [wireRow]

theorem cmdOfBytes_wireFrame (f : CmdFrame) : cmdOfBytes ((wireFrame f).take 8) = some f := rfl

/-- The instruction fetched in an operation in progress does what its phase does. -/
theorem exec_frameInstr {s : State} {i : Instr} (h : frameInstr s = some i) : exec i s = resume s := by
  unfold frameInstr at h
  split at h
  · next hr =>
    split at h
    · next hp =>
      split at h
      · next f e hc he =>
        split at h
        · next j hj =>
          split at h
          · next hrow =>
            cases h
            rw [decodeWire, cmdOfBytes_wireFrame] at hj
            have hf := lookupFrame_row (by simpa using hj)
            rcases hx : wireRow s.params i with _ | ⟨g, e'⟩ <;> simp [hx] at hf hrow
            subst hf hrow
            rw [exec_wireRow hx, sendCommand, if_pos (by simp [underWay, hp, hc, he, hr])]
            unfold resume
            simp only [hr, hc, he]
            split <;> simp_all [exchanging]
          · cases h
        · cases h
      · cases h
    · split at h
      · next hp =>
        rcases hs : s.rsp with _ | r
        · simp [hs] at h
        · simp only [hs, Option.map_some, Option.some.injEq] at h
          subst h
          have e : ({ s with phase := .chkPre, rsp := some r } : State) = s := by rw [← hp, ← hs]
          simp only [exec, execRspGetReading, e]
          simp [resume, hr, hp, hs]
      · cases h
  · cases h

/-- Everything the exec of a requested operation can do from `s`: nothing (refused, or SET_RANGE default); a tick in its window
ends; BOOT ends at once; or an exchange begins. -/
inductive RequestTo (i : Instr) (s : State) : State → Prop
  | nothing (h : takes i s = false ∨ i = .setRangeDefault) : RequestTo i s s
  | warms (hi : i = .tick) (hr : ready s = true) : RequestTo i s (warn .warmup s)
  | ticks (hi : i = .tick) (hr : ready s = true) :
      RequestTo i s (startExchange getReadingFrame true (beginOp .tick s))
  | commands (o : Op) (j : Instr) (f : CmdFrame) (hi : i ≠ .boot) (ht : takes i s = true) (hr : ready s = true)
      (hj : wireRow s.params j = some (f, false)) (h1 : o ≠ .tick) (h2 : o ≠ .boot) :
      RequestTo i s (startExchange f false (beginOp o s))
  | boots (l : Bool) (j : Instr) (f : CmdFrame) (hi : i = .boot) (hr : bootable s = true)
      (hj : wireRow s.params j = some (f, false)) :
      RequestTo i s (startExchange f false { beginOp .boot s with rangeLeft := l })
  | bootEnds (hi : i = .boot) (hr : bootable s = true) : RequestTo i s { finish s with bootDone := true }

theorem rangeFrame_row {p : Params} {r : Range} {f : CmdFrame} (h : rangeFrame p r = some f) :
    ∃ j, wireRow p j = some (f, false) := by
  cases r <;> simp only [rangeFrame, Option.some.injEq, reduceCtorEq] at h <;> subst h
  · exact ⟨.wireRange2000, rfl⟩
  · exact ⟨.wireRange5000, rfl⟩
  · exact ⟨.wireRange10000, rfl⟩

theorem command_to {i : Instr} {o : Op} {j : Instr} {f : CmdFrame} {s : State} (hi : i ≠ .boot)
    (ht : takes i s = ready s) (hj : wireRow s.params j = some (f, false)) (h1 : o ≠ .tick) (h2 : o ≠ .boot) :
    RequestTo i s (command o f s) := by
  unfold command
  split
  · next hr => exact .commands o j f hi (ht.trans hr) hr hj h1 h2
  · next hr => exact .nothing (.inl (ht.trans (by simpa using hr)))

theorem tickGate_next {s t : State} (h : tickGate s = .next t) :
    t = warn .warmup s ∨ t = startExchange getReadingFrame true s := by
  unfold tickGate at h
  split at h
  · split at h <;> cases h <;> simp
  · cases h

theorem exec_request {code : BitVec 4} {range : BitVec 2} {i : Instr} {s t : State}
    (hd : decodeRequest code range = .ok i) (h : exec i s = .next t) : RequestTo i s t := by
  have key : i ∈ [Instr.boot, .tick, .recover, .calibrateZero, .abcEnable, .abcDisable, .setRangeDefault, .setRange2000,
      .setRange5000, .setRange10000] := by
    unfold decodeRequest at hd
    split at hd <;> first | (split at hd <;> cases hd <;> simp) | (cases hd <;> simp)
  simp only [List.mem_cons, List.not_mem_nil, or_false] at key
  rcases key with rfl | rfl | rfl | rfl | rfl | rfl | rfl | rfl | rfl | rfl
  · simp only [exec, execBoot] at h
    split at h
    · next hr =>
      split at h
      · cases h; exact .boots _ .wireAbcEnable _ rfl hr rfl
      · cases h; exact .boots _ .wireAbcDisable _ rfl hr rfl
      · cases h
        rcases bootRange_cases { beginOp .boot s with rangeLeft := s.params.bootSendsRange } with ⟨f, -, h2, h3⟩ | h3
        · obtain ⟨j, hj⟩ := rangeFrame_row h2
          rw [h3]; exact .boots false j f rfl hr hj
        · rw [h3]; exact .bootEnds rfl hr
    · next hr => cases h; exact .nothing (.inl (by simpa [takes] using hr))
  · simp only [exec, execTick] at h
    split at h
    · next hr =>
      rcases tickGate_next h with rfl | rfl
      · exact .warms rfl hr
      · exact .ticks rfl hr
    · next hr => cases h; exact .nothing (.inl (by simpa [takes] using hr))
  · cases h; exact command_to (j := .wireRecover) (by simp) rfl rfl (by simp) (by simp)
  · cases h; exact command_to (j := .wireCalibrateZero) (by simp) rfl rfl (by simp) (by simp)
  · cases h; exact command_to (j := .wireAbcEnable) (by simp) rfl rfl (by simp) (by simp)
  · cases h; exact command_to (j := .wireAbcDisable) (by simp) rfl rfl (by simp) (by simp)
  · cases h; exact .nothing (.inr rfl)
  · cases h; exact command_to (j := .wireRange2000) (by simp) rfl rfl (by simp) (by simp)
  · cases h; exact command_to (j := .wireRange5000) (by simp) rfl rfl (by simp) (by simp)
  · cases h; exact command_to (j := .wireRange10000) (by simp) rfl rfl (by simp) (by simp)

/-! ### The step -/

/-- Every step is the machine's own, or takes a move of host or environment. -/
theorem own_or_taken (s : State) : (∃ s1, OwnStep s s1) ∨ ∃ m rest, Taken s m rest := by
  rcases ha : s.agenda with _ | ⟨_ | _ | _, rest⟩
  · exact .inl ⟨s, .inl ⟨ha, rfl⟩⟩
  · next m =>
    rcases hl : lineOpen s
    · exact .inl ⟨s, .inr (.inr ⟨m, rest, ha, hl, rfl⟩)⟩
    · exact .inr ⟨m, rest, .inr ⟨ha, hl⟩⟩
  · exact .inr ⟨_, rest, .inl ha⟩
  · exact .inl ⟨_, .inr (.inl ⟨rest, ha, rfl⟩)⟩

theorem fetch_own {s s1 : State} (h : OwnStep s s1) : fetch s = ownNext s1 := by
  rcases h with ⟨ha, rfl⟩ | ⟨rest, ha, rfl⟩ | ⟨m, rest, ha, hl, rfl⟩ <;> simp [fetch, *]

theorem fetch_taken {s : State} {m : Move} {rest : List Event} (h : Taken s m rest) :
    fetch s = moveNext m { s with agenda := rest } := by
  rcases h with ha | ⟨ha, hl⟩ <;> simp [fetch, *]

theorem taken_unique {s : State} {m m' : Move} {rest rest' : List Event} (h : Taken s m rest) (k : Taken s m' rest') :
    m = m' ∧ rest = rest' := by
  rcases h with h | ⟨h, -⟩ <;> rcases k with k | ⟨k, -⟩ <;> simp_all

theorem taken_not_own {s s1 : State} {m : Move} {rest : List Event} (h : Taken s m rest) : ¬OwnStep s s1 := by
  rintro (⟨k, -⟩ | ⟨_, k, -⟩ | ⟨_, _, k, hl, -⟩) <;> rcases h with h | ⟨h, h'⟩ <;> simp_all

/-- The state an own step is made from differs in the agenda alone. -/
theorem ownStep_same {s s1 : State} (h : OwnStep s s1) : ∃ rest, s1 = { s with agenda := rest } := by
  rcases h with ⟨-, rfl⟩ | ⟨rest, -, rfl⟩ | ⟨-, -, -, -, rfl⟩ <;> exact ⟨_, rfl⟩

/-- A step that takes a move is a reset exactly when the move is. -/
theorem resetTaken_iff {s : State} {m : Move} {rest : List Event} (h : Taken s m rest) : ResetTaken s ↔ m = .reset := by
  constructor
  · rintro ⟨r, k⟩; exact (taken_unique h k).1
  · rintro rfl; exact ⟨rest, h⟩

theorem own_not_reset {s s1 : State} (h : OwnStep s s1) : ¬ResetTaken s := fun ⟨_, k⟩ => taken_not_own k h

/-- An own step, as a function of the state it is made from. -/
theorem step_own {s s1 : State} (h : OwnStep s s1) :
    step s = match owedMove s1 with
      | some m => .next (envMove m s1)
      | none => if s1.phase = .idle then .next s1 else resume s1 := by
  unfold step
  rw [fetch_own h]
  unfold ownNext
  rcases hm : owedMove s1 with _ | m
  · by_cases hp : s1.phase = .idle
    · simp [hp]
    · rcases hf : frameInstr s1 with _ | i
      · simp [hp]
      · simp [hp, exec_frameInstr hf]
  · simp

/-- A step that takes a move, as a function of the move and the rest of the agenda. -/
theorem step_taken {s : State} {m : Move} {rest : List Event} (h : Taken s m rest) :
    step s = match m with
      | .env m => .next (envMove m { s with agenda := rest })
      | .reset => .next (resetFramer { s with agenda := rest })
      | .config c =>
        if s.phase = .idle ∧ s.bootDone = false then .next { s with cfg := c, agenda := rest }
        else .refused .configNotWritable
      | .request code range =>
        if s.phase = .idle then
          match decodeRequest code range with
          | .ok i => exec i { s with agenda := rest }
          | .error _ => .next { s with agenda := rest }
        else .next { s with agenda := rest } := by
  unfold step
  rw [fetch_taken h]
  unfold moveNext
  cases m with
  | env m => rfl
  | reset => rfl
  | config c => by_cases hc : s.phase = .idle ∧ s.bootDone = false <;> simp [hc]
  | request code range =>
    by_cases hp : s.phase = .idle
    · rcases hd : decodeRequest code range with e | i <;> simp only [hp, if_true, hd]
    · simp [hp]

/-- Everything a step can be. -/
inductive StepTo (s : State) : State → Prop
  | env (m : EnvMove) (rest : List Event) (h : Taken s (.env m) rest) : StepTo s (envMove m { s with agenda := rest })
  | owed (m : EnvMove) (s1 : State) (h : OwnStep s s1) (hm : owedMove s1 = some m) : StepTo s (envMove m s1)
  | reset (rest : List Event) (h : Taken s .reset rest) : StepTo s (resetFramer { s with agenda := rest })
  | config (c : Configuration) (rest : List Event) (h : Taken s (.config c) rest) (hp : s.phase = .idle)
      (hb : s.bootDone = false) : StepTo s { s with cfg := c, agenda := rest }
  | dropped (code : BitVec 4) (range : BitVec 2) (rest : List Event) (h : Taken s (.request code range) rest)
      (hp : s.phase ≠ .idle ∨ ∃ e, decodeRequest code range = .error e) : StepTo s { s with agenda := rest }
  | requested (code : BitVec 4) (range : BitVec 2) (rest : List Event) (i : Instr) (t : State)
      (h : Taken s (.request code range) rest) (hp : s.phase = .idle) (hd : decodeRequest code range = .ok i)
      (hx : RequestTo i { s with agenda := rest } t) : StepTo s t
  | rests (s1 : State) (h : OwnStep s s1) (hp : s.phase = .idle) : StepTo s s1
  | goes (s1 t : State) (h : OwnStep s s1) (ho : owedMove s1 = none) (hp : s1.phase ≠ .idle) (hx : ResumeTo s1 t) :
      StepTo s t

theorem step_next {s t : State} (h : step s = .next t) : StepTo s t := by
  rcases own_or_taken s with ⟨s1, ho⟩ | ⟨m, rest, hm⟩
  · rw [step_own ho] at h
    split at h
    · cases h; exact .owed _ s1 ho ‹_›
    · split at h
      · next hp =>
        cases h
        refine .rests _ ho ?_
        obtain ⟨rest, hs⟩ := ownStep_same ho
        rw [hs] at hp; exact hp
      · exact .goes s1 t ho ‹_› ‹_› (resume_next ‹_› h)
  · rw [step_taken hm] at h
    cases m with
    | env m => cases h; exact .env m rest hm
    | reset => cases h; exact .reset rest hm
    | config c =>
      dsimp only at h
      split at h
      · cases h; next hc => exact .config c rest hm hc.1 hc.2
      · cases h
    | request code range =>
      dsimp only at h
      split at h
      · next hp =>
        split at h
        · exact .requested code range rest _ t hm hp ‹_› (exec_request ‹_› h)
        · cases h; exact .dropped code range rest hm (.inr ⟨_, ‹_›⟩)
      · next hp => cases h; exact .dropped code range rest hm (.inl hp)

end Sys2Proof.Machine
end

