-- ==== Sys2Proof/Laws/PerInstr.lean ====
section
/-! SUPPORT. The statements made per instruction, one lemma per constructor. -/

namespace Sys2Proof.Laws

open Sys2Proof Sys2Proof.Machine

/-- The encoding has one of the two fixed lengths (R79, R80): an operation word is one byte with bits 7:6 zero, a frame is
nine bytes of which the first is 0xFF (R61, R64), whatever the parameters, if those are well formed. -/
def Encoding.Statement (i : Instr) : Prop :=
  i.wellFormed = true → ∀ p : Params, paramsWellFormed p = true →
    (∃ b : Byte, encode p i = [b] ∧ b.extractLsb' 6 2 = 0#2) ∨
      ((encode p i).length = 9 ∧ (encode p i).head? = some 0xFF)

theorem encoding_of_wire {p : Params} {i : Instr} {f : CmdFrame} (h : encode p i = wireFrame f) (hf : f.wellFormed = true) :
    (∃ b : Byte, encode p i = [b] ∧ b.extractLsb' 6 2 = 0#2) ∨
      ((encode p i).length = 9 ∧ (encode p i).head? = some 0xFF) := by
  right
  simp only [CmdFrame.wellFormed, Bool.and_eq_true, beq_iff_eq] at hf
  simp [h, wireFrame, cmdBytes, hf]

theorem Encoding.wireGetReading : Encoding.Statement .wireGetReading := fun _ _ _ => encoding_of_wire rfl rfl
theorem Encoding.wireRange5000 : Encoding.Statement .wireRange5000 := fun _ _ _ => encoding_of_wire rfl rfl
theorem Encoding.wireRange2000 : Encoding.Statement .wireRange2000 :=
  fun _ p hp => encoding_of_wire rfl (by simp [paramsWellFormed] at hp; simp [hp])
theorem Encoding.wireRange10000 : Encoding.Statement .wireRange10000 :=
  fun _ p hp => encoding_of_wire rfl (by simp [paramsWellFormed] at hp; simp [hp])
theorem Encoding.wireAbcEnable : Encoding.Statement .wireAbcEnable :=
  fun _ p hp => encoding_of_wire rfl (by simp [paramsWellFormed] at hp; simp [hp])
theorem Encoding.wireAbcDisable : Encoding.Statement .wireAbcDisable :=
  fun _ p hp => encoding_of_wire rfl (by simp [paramsWellFormed] at hp; simp [hp])
theorem Encoding.wireCalibrateZero : Encoding.Statement .wireCalibrateZero :=
  fun _ p hp => encoding_of_wire rfl (by simp [paramsWellFormed] at hp; simp [hp])
theorem Encoding.wireRecover : Encoding.Statement .wireRecover :=
  fun _ p hp => encoding_of_wire rfl (by simp [paramsWellFormed] at hp; simp [hp])
theorem Encoding.rspGetReading (r : RspFrame) : Encoding.Statement (.rspGetReading r) := fun h p _ => by
  right
  simp only [Instr.wellFormed, RspFrame.hasPreamble, Bool.and_eq_true, beq_iff_eq] at h
  simp [encode, rspBytes, h]
theorem Encoding.boot : Encoding.Statement .boot := fun _ _ _ => .inl ⟨_, rfl, by decide⟩
theorem Encoding.tick : Encoding.Statement .tick := fun _ _ _ => .inl ⟨_, rfl, by decide⟩
theorem Encoding.recover : Encoding.Statement .recover := fun _ _ _ => .inl ⟨_, rfl, by decide⟩
theorem Encoding.calibrateZero : Encoding.Statement .calibrateZero := fun _ _ _ => .inl ⟨_, rfl, by decide⟩
theorem Encoding.abcEnable : Encoding.Statement .abcEnable := fun _ _ _ => .inl ⟨_, rfl, by decide⟩
theorem Encoding.abcDisable : Encoding.Statement .abcDisable := fun _ _ _ => .inl ⟨_, rfl, by decide⟩
theorem Encoding.setRangeDefault : Encoding.Statement .setRangeDefault := fun _ _ _ => .inl ⟨_, rfl, by decide⟩
theorem Encoding.setRange2000 : Encoding.Statement .setRange2000 := fun _ _ _ => .inl ⟨_, rfl, by decide⟩
theorem Encoding.setRange5000 : Encoding.Statement .setRange5000 := fun _ _ _ => .inl ⟨_, rfl, by decide⟩
theorem Encoding.setRange10000 : Encoding.Statement .setRange10000 := fun _ _ _ => .inl ⟨_, rfl, by decide⟩

end Sys2Proof.Laws
end

