-- ==== Sys2Proof/Laws/Runs.lean ====
section
/-! SUPPORT. Runs of an exchange while nothing interferes, phase by phase, then as a whole (`reaches_flush`,
`reaches_sent`, `reaches_read`). -/

namespace Sys2Proof.Machine

open Sys2Proof

theorem reaches_trans {s t u : State} (h : Reaches s t) (k : Reaches t u) : Reaches s u := by
  induction h with
  | here => exact k
  | next h _ ih => exact .next h (ih k)

theorem reaches_one {s t : State} (h : step s = .next t) : Reaches s t := .next h (.here t)

/-- While nothing interferes, an operation in progress that does not wait takes its own step. -/
theorem step_quiet {s : State} (hq : Quiet s) (hp : s.phase ≠ .idle) (hw : waits s = false) (ho : owedMove s = none) :
    step s = resume s := by
  have own : OwnStep s s := by
    rcases hq with h | ⟨m, rest, h⟩
    · exact .inl ⟨h, rfl⟩
    · exact .inr (.inr ⟨m, rest, h, by simp [lineOpen, hp, hw], rfl⟩)
  rw [step_own own, ho]
  simp [hp]

/-- While nothing interferes, the move the environment owes is made. -/
theorem step_owed {s : State} {m : EnvMove} (hq : Quiet s) (hp : s.phase ≠ .idle) (hw : waits s = false)
    (ho : owedMove s = some m) : step s = .next (envMove m s) := by
  have own : OwnStep s s := by
    rcases hq with h | ⟨m, rest, h⟩
    · exact .inl ⟨h, rfl⟩
    · exact .inr (.inr ⟨m, rest, h, by simp [lineOpen, hp, hw], rfl⟩)
  rw [step_own own, ho]

/-- The framer's own step in an exchange. -/
theorem resume_exchange {s : State} {f : CmdFrame} {e : Bool} (hx : exchanging s.phase = true) (hr : s.ret = none)
    (hc : s.cmd = some f) (he : s.expect = some e) : resume s = exchangeStep f e s := by
  unfold resume
  simp only [hr, hc, he]
  split <;> simp_all [exchanging]

/-- The drain, to its end (R93). -/
theorem reaches_drained {f : CmdFrame} {e : Bool} {s : State} (hq : Quiet s) (hf : s.floods = none)
    (hp : s.phase = .drain) (hr : s.ret = none) (hc : s.cmd = some f) (he : s.expect = some e) :
    Reaches s { s with rxq := [], acts := s.acts ++ s.rxq.map .pop, phase := .tx, bcnt := some 0, csum := some 0 } := by
  generalize hl : s.rxq = l
  induction l generalizing s with
  | nil =>
    refine reaches_one ?_
    rw [step_quiet hq (by simp [hp]) (by simp [waits, hp]) (by simp [owedMove, hp, hl, hf]),
      resume_exchange (by simp [hp, exchanging]) hr hc he]
    simp [exchangeStep, hp, drainStep, hl]
  | cons b l ih =>
    refine .next (t := popByte b l s) ?_ ?_
    · rw [step_quiet hq (by simp [hp]) (by simp [waits, hp]) (by simp [owedMove, hp, hl]),
        resume_exchange (by simp [hp, exchanging]) hr hc he]
      simp [exchangeStep, hp, drainStep, hl]
    · have := ih (s := popByte b l s) hq hf hp hr hc he rfl
      simpa [popByte] using this

/-- The pushes: eight bytes of the frame and its checksum (R94). -/
theorem reaches_pushed {f : CmdFrame} {e : Bool} {s : State} (hq : Quiet s) (hp : s.phase = .tx) (hr : s.ret = none)
    (hc : s.cmd = some f) (he : s.expect = some e) (hb : s.bcnt = some 0) (hs : s.csum = some 0) :
    Reaches s { s with phase := .flush, bcnt := none, csum := none, txPending := s.txPending ++ wireFrame f,
                       acts := s.acts ++ (wireFrame f).map .push } := by
  have one : ∀ {u v : State} (i c), Quiet u → u.phase = .tx → u.ret = none → u.cmd = some f → u.expect = some e →
      u.bcnt = some i → u.csum = some c → txStep f i c u = v → step u = .next v := by
    intro u v i c hq hp hr hc he hb hs h
    rw [step_quiet hq (by simp [hp]) (by simp [waits, hp]) (by simp [owedMove, hp]),
      resume_exchange (by simp [hp, exchanging]) hr hc he]
    simp [exchangeStep, hp, hb, hs, h]
  have some8 : ∀ n, n ≤ 8 → Reaches s { s with
      bcnt := some (BitVec.ofNat 4 n), csum := some (partialSum f n), txPending := s.txPending ++ (cmdBytes f).take n,
      acts := s.acts ++ ((cmdBytes f).take n).map .push } := by
    intro n
    induction n with
    | zero =>
      intro _
      have : ({ s with bcnt := some (BitVec.ofNat 4 0), csum := some (partialSum f 0),
                       txPending := s.txPending ++ (cmdBytes f).take 0,
                       acts := s.acts ++ ((cmdBytes f).take 0).map .push } : State) = s := by
        rw [List.take_zero, List.map_nil, List.append_nil, List.append_nil,
          show partialSum f 0 = 0 from rfl, show BitVec.ofNat 4 0 = 0 from rfl, ← hb, ← hs]
      rw [this]; exact .here s
    | succ n ih =>
      intro hn
      refine reaches_trans (ih (by omega)) (reaches_one ?_)
      refine one _ _ hq hp hr hc he rfl rfl ?_
      have hi : (BitVec.ofNat 4 n).toNat = n := by rw [BitVec.toNat_ofNat]; omega
      have hz : (BitVec.ofNat 4 n = 0) = (n = 0) := by rw [← hi]; simp [← BitVec.toNat_inj]
      rcases hx : (cmdBytes f)[n]? with _ | b
      · have := cmdBytes_getElem?.1 hx; omega
      · simp only [txStep, hi, hx, hz, partialSum_succ hx, pushByte, List.take_add_one, Option.toList_some, List.map_append,
          List.append_assoc, List.map_cons, List.map_nil, BitVec.ofNat_add]
        rfl
  refine reaches_trans (some8 8 (le_refl _)) (reaches_one ?_)
  refine one _ _ hq hp hr hc he rfl rfl ?_
  rw [show (cmdBytes f).take 8 = cmdBytes f from rfl]
  simp only [txStep, show (cmdBytes f)[(BitVec.ofNat 4 8).toNat]? = none from rfl, checksum_partialSum (le_refl 8), pushByte,
    wireFrame, List.append_assoc, List.map_append, List.map_cons, List.map_nil]

/-- The bytes leave while the flush waits (R46, R47). -/
theorem reaches_emptied {s : State} (hq : Quiet s) (hs : s.stalls = false) (hp : s.phase = .flush) (hr : s.ret = none) :
    Reaches s { s with wire := s.wire ++ s.txPending, txPending := [] } := by
  generalize hl : s.txPending = l
  induction l generalizing s with
  | nil =>
    have : ({ s with wire := s.wire ++ [], txPending := [] } : State) = s := by rw [List.append_nil, ← hl]
    rw [this]; exact .here s
  | cons b l ih =>
    refine .next (t := { s with txPending := l, wire := s.wire ++ [b] }) ?_ ?_
    · rw [step_owed (m := .sent) hq (by simp [hp]) (by simp [waits, hp, hs]) (by simp [owedMove, hp, hr, hs, hl])]
      simp [envMove, hl]
    · have := ih (s := { s with txPending := l, wire := s.wire ++ [b] }) hq hs hp hr rfl
      simpa using this

/-- The flush returns once nothing is pending (R47). -/
theorem reaches_returned {f : CmdFrame} {e : Bool} {s t : State} (hq : Quiet s) (hp : s.phase = .flush)
    (hr : s.ret = none) (hc : s.cmd = some f) (he : s.expect = some e) (ht : s.txPending = [])
    (h : { flushReturns s with phase := if e then .rxWait else .flush, ret := if e then none else some .ok } = t) :
    Reaches s t := by
  refine reaches_one ?_
  rw [step_quiet hq (by simp [hp]) (by simp [waits, hp, ht]) (by simp [owedMove, hp, ht]),
    resume_exchange (by simp [hp, exchanging]) hr hc he, ← h]
  cases e <;> simp [exchangeStep, flushStep, flushReturns, hp, hr, ht]

/-- An exchange to the return of its flush. -/
theorem reaches_flush (f : CmdFrame) (e : Bool) {s : State} (hq : Quiet s) (hf : Fair s) :
    Reaches (startExchange f e s)
      { exchanged f s with
        phase := if e then .rxWait else .flush, cmd := some f, expect := some e, csum := none, bcnt := none,
        ret := if e then none else some .ok } := by
  refine reaches_trans (reaches_drained (f := f) (e := e) (s := startExchange f e s) hq hf.2 rfl rfl rfl rfl) ?_
  refine reaches_trans (reaches_pushed (f := f) (e := e) hq rfl rfl rfl rfl rfl rfl) ?_
  refine reaches_trans (reaches_emptied hq hf.1 rfl rfl) ?_
  refine reaches_returned (f := f) (e := e) hq rfl rfl rfl rfl rfl ?_
  cases e <;> simp [flushReturns, exchanged, exchangeActs, startExchange]

/-- An exchange that expects no response, to its return. -/
theorem reaches_sent (f : CmdFrame) {s : State} (hq : Quiet s) (hf : Fair s) :
    Reaches (startExchange f false s)
      { exchanged f s with phase := .flush, cmd := some f, expect := some false, csum := none, bcnt := none,
                           ret := some .ok } :=
  reaches_flush f false hq hf

/-- The transport answers the read, if it does not wait (R45). -/
theorem reaches_answer {f : CmdFrame} {s t : State} (hq : Quiet s) (hp : s.phase = .rxWait) (hr : s.ret = none)
    (hc : s.cmd = some f) (he : s.expect = some true) (hw : s.rxq.length < 9 → readWaits s = false)
    (h : readStep s = t) : Reaches s t := by
  refine reaches_one ?_
  rw [step_quiet hq (by simp [hp]) ?_ (by simp [owedMove, hp]), resume_exchange (by simp [hp, exchanging]) hr hc he, ← h]
  · simp [exchangeStep, hp]
  · by_cases hl : s.rxq.length < 9
    · simp [waits, hp, hw hl]
    · simp [waits, hp, hl]

/-- An exchange that expects a response, to the answer of its read. -/
theorem reaches_read (f : CmdFrame) {s : State} (hq : Quiet s) (hf : Fair s)
    (hw : s.onFlush.length < 9 → readWaits s = false) :
    Reaches (startExchange f true s) (readStep
      { exchanged f s with phase := .rxWait, cmd := some f, expect := some true, csum := none, bcnt := none,
                           ret := none }) := by
  refine reaches_trans (reaches_flush f true hq hf) ?_
  exact reaches_answer (f := f) hq rfl rfl rfl rfl hw rfl

/-- While nothing interferes, the caller goes on when SendCommand has returned (R92). -/
theorem step_returned {s t : State} {x : SendResult} (hq : Quiet s) (hp : s.phase ≠ .idle) (hr : s.ret = some x)
    (h : returned x s = t) : step s = .next t := by
  rw [step_quiet hq hp (by simp [waits, hr]) (by unfold owedMove; split <;> simp [hr]; split <;> simp)]
  simp [resume, hr, h]

/-- While nothing interferes, the response is validated (R113). -/
theorem step_validates {s t : State} {r : RspFrame} (hq : Quiet s) (hp : s.phase = .chkPre) (hr : s.ret = none)
    (hs : s.rsp = some r) (h : checkPreamble r s = t) : step s = .next t := by
  rw [step_quiet hq (by simp [hp]) (by simp [waits, hp]) (by simp [owedMove, hp])]
  simp [resume, hp, hr, hs, h]

/-- A framer that is stuck in an exchange stays as it is (R193, R202). -/
theorem step_stuck {f : CmdFrame} {e : Bool} {s : State} (h : Stuck s) (hc : s.cmd = some f) (he : s.expect = some e) :
    step s = .next s := by
  obtain ⟨ha, hw⟩ := h
  simp only [waits, Bool.and_eq_true, beq_iff_eq] at hw
  obtain ⟨hr, hw⟩ := hw
  rw [step_own (.inl ⟨ha, rfl⟩)]
  split at hw
  · next hp =>
    simp only [Bool.and_eq_true, bne_iff_ne] at hw
    simp only [owedMove, hp, hr, hw]
    simpa [exchangeStep, flushStep, hp, hw] using resume_exchange (by simp [hp, exchanging]) hr hc he
  · next hp =>
    simp only [Bool.and_eq_true, decide_eq_true_eq] at hw
    simp only [owedMove, hp]
    simpa [exchangeStep, readStep, takeResponse_none.2 hw.2, hp, hw] using
      resume_exchange (by simp [hp, exchanging]) hr hc he
  · cases hw

end Sys2Proof.Machine
end

