-- ==== Sys2Proof/Tests/Slice0.lean ====
section
/-! SUPPORT. Tests: expected results are those of spec/95_test_vectors.md (the name of the vector stands beside each), of the
encodings of spec/30_encoding.md and spec/opcode_table.json, and of hand calculation; then the witnesses of the statements. -/

namespace Sys2Proof.Tests

open Sys2Proof Sys2Proof.Machine

/-! ### Small states -/

/-- A machine after BOOT, both sinks configured, window 1 s, `NOW_MS` as given, `RXQ` as given. -/
def ready (now : Nat) (q : List Byte) : State :=
  { State.reset with
    bootDone := true, nowMs := now, rxq := q,
    cfg := { resetConfiguration with warmupS := 1, co2SinkEn := true, tempSinkEn := true } }

/-- As `ready`, the window past, with bytes that arrive when the request is on the line. -/
def answering (bs : List Byte) : State := { ready 1000 [] with onFlush := bs }

/-- A TICK in its exchange, in phase `p`, with `RXQ` as given. -/
def inTick (p : Phase) (q : List Byte) : State :=
  { ready 1000 q with phase := p, op := some .tick, cmd := some getReadingFrame, expect := some true }

/-- RECOVER in its exchange, in phase `p`, with `RXQ` as given. -/
def inRecover (p : Phase) (q : List Byte) : State :=
  { ready 1000 q with phase := p, op := some .recover, cmd := some defaultParams.recover, expect := some false }

/-- A machine before BOOT with this policy, range and parameter. -/
def fresh (a : AbcPolicy) (r : Range) (sends : Bool) : State :=
  { State.reset with
    cfg := { resetConfiguration with abcBoot := a, range := r }, params := { defaultParams with bootSendsRange := sends },
    rxq := [0xAA, 0xBB] }

/-- The answer of V1 (S3): CO2 1000, TEMP 0. -/
def v1 : RspFrame := ⟨0xFF, 0x86, 0x03, 0xE8, 0x28, 0x00, 0x00, 0x00, 0x67⟩

/-- The outcome is a next state that passes the test. -/
def nextIs (o : Host.Outcome State Fault Refusal) (p : State → Bool) : Bool :=
  match o with
  | .next t => p t
  | .fault _ => false
  | .refused _ => false

/-! ### Decoding: one word per row, written out from its encoding (R61, R64, R71 to R77, R80) -/

theorem test_decode_wire_get_reading : decodeTableWord 72 0xFF0186000000000079 = some .wireGetReading := by decide
theorem test_decode_wire_range_5000 : decodeTableWord 72 0xFF01990000001388CB = some .wireRange5000 := by decide
theorem test_decode_wire_range_2000 : decodeTableWord 72 0xFF019900000007D08F = some .wireRange2000 := by decide
theorem test_decode_wire_range_10000 : decodeTableWord 72 0xFF019900000027102F = some .wireRange10000 := by decide
theorem test_decode_wire_abc_enable : decodeTableWord 72 0xFF0179A000000000E6 = some .wireAbcEnable := by decide
theorem test_decode_wire_abc_disable : decodeTableWord 72 0xFF0179000000000086 = some .wireAbcDisable := by decide
theorem test_decode_wire_calibrate_zero : decodeTableWord 72 0xFF0187000000000078 = some .wireCalibrateZero := by decide
theorem test_decode_wire_recover : decodeTableWord 72 0xFF0178000000000087 = some .wireRecover := by decide
theorem test_decode_rsp_get_reading : decodeTableWord 72 0xFF8603E82800000067 = some (.rspGetReading v1) := by decide
theorem test_decode_boot : decodeTableWord 6 0b000000 = some .boot := by decide
theorem test_decode_tick : decodeTableWord 6 0b000100 = some .tick := by decide
theorem test_decode_recover : decodeTableWord 6 0b001000 = some .recover := by decide
theorem test_decode_calibrate_zero : decodeTableWord 6 0b001100 = some .calibrateZero := by decide
theorem test_decode_abc_enable : decodeTableWord 6 0b010000 = some .abcEnable := by decide
theorem test_decode_abc_disable : decodeTableWord 6 0b010100 = some .abcDisable := by decide
theorem test_decode_set_range_default : decodeTableWord 6 0b011000 = some .setRangeDefault := by decide
theorem test_decode_set_range_2000 : decodeTableWord 6 0b011001 = some .setRange2000 := by decide
theorem test_decode_set_range_5000 : decodeTableWord 6 0b011010 = some .setRange5000 := by decide
theorem test_decode_set_range_10000 : decodeTableWord 6 0b011011 = some .setRange10000 := by decide

/-- `op_range` is ignored but by SET_RANGE (R80): TICK with `op_range` 3. -/
theorem test_decode_tick_ignores_range : decodeTableWord 6 0b000111 = some .tick := by decide

theorem test_decode_rejects :
    decode defaultParams [0x1C] = .error .noSuchOperation ∧ decode defaultParams [0x44] = .error .bitsAboveWord ∧
    decode defaultParams [0xFF, 0x01] = .error .noSuchLength ∧ decode defaultParams [] = .error .noSuchLength ∧
    decode defaultParams [0xFF, 0x01, 0x86, 0, 0, 0, 0, 0, 0x78] = .error .noSuchFrame ∧
    decode defaultParams [0xFF, 0x85, 0x03, 0xE8, 0x28, 0, 0, 0, 0x68] = .error .noSuchFrame := by decide

theorem test_encode_words :
    encode defaultParams .wireRange5000 = [0xFF, 0x01, 0x99, 0x00, 0x00, 0x00, 0x13, 0x88, 0xCB] ∧
    encode defaultParams (.rspGetReading v1) = [0xFF, 0x86, 0x03, 0xE8, 0x28, 0x00, 0x00, 0x00, 0x67] ∧
    encode defaultParams .tick = [0x04] ∧ encode defaultParams .setRange10000 = [0x1B] := by decide

/-! ### Well-formedness: an ill-formed term for each check -/

theorem test_wellFormed_instr : (Instr.rspGetReading v1).wellFormed = true ∧
    (Instr.rspGetReading { v1 with echo := 0x85 }).wellFormed = false ∧
    (Instr.rspGetReading { v1 with pre := 0xFE }).wellFormed = false := by decide

theorem test_wellFormed_params : paramsWellFormed defaultParams = true ∧
    paramsWellFormed { defaultParams with recover := { getReadingFrame with addr := 0xFE } } = false ∧
    paramsWellFormed { defaultParams with abcEnable := { getReadingFrame with devid := 0x02 } } = false ∧
    paramsWellFormed { defaultParams with range2000 := range5000Frame } = false ∧
    paramsWellFormed { defaultParams with range2000 := defaultParams.range10000 } = false ∧
    paramsWellFormed { defaultParams with abcEnable := defaultParams.abcDisable } = false := by decide

theorem test_framesDistinct : framesDistinct defaultParams = true ∧
    framesDistinct { defaultParams with recover := getReadingFrame } = false := by decide

/-! ### The checksum (K1, K2, K9, K11, K13, K14, K15, K16) -/

theorem test_checksum_vectors :
    checksum [0xFF, 0x01, 0x86, 0x00, 0x00, 0x00, 0x00, 0x00] = 0x79 ∧
    checksum [0xFF, 0x01, 0x99, 0x00, 0x00, 0x00, 0x13, 0x88] = 0xCB ∧
    checksum [0xFF, 0x00, 0x00, 0x00, 0x00, 0x00, 0x00, 0x00] = 0x00 ∧
    checksum [0xFF, 0xFF, 0xFF, 0xFF, 0xFF, 0xFF, 0xFF, 0xFF] = 0x07 ∧
    checksum [0xFF, 0x86, 0x00, 0x00, 0x79, 0x00, 0x00, 0x00] = 0x01 ∧
    checksum [0xFF, 0x86, 0x00, 0x00, 0x7A, 0x00, 0x00, 0x00] = 0x00 ∧
    checksum [0x12, 0x80, 0x00, 0x00, 0x00, 0x00, 0x00, 0x00] = 0x80 ∧
    checksum [0xFF, 0x01, 0x80, 0x00, 0x00, 0x00, 0x00, 0x00] = 0x7F := by decide

/-! ### SendCommand, one step at a time -/

/-- X2: the older of two stale bytes is popped first; an empty queue ends the drain with BCNT 0. -/
theorem test_drain :
    nextIs (exec .wireRange5000 { ready 0 [0x12, 0x34] with phase := .drain, cmd := some range5000Frame, expect := some false })
      (fun t => t.phase == .drain && t.rxq == [0x34] && t.acts == [.pop 0x12]) = true ∧
    nextIs (exec .wireRecover (inRecover .drain [])) (fun t => t.phase == .tx && t.bcnt == some 0 && t.acts == []) = true := by
  decide

/-- X2: after the eight bytes, the checksum CB of 01 99 00 00 00 13 88 goes out; and the first byte is not summed. -/
theorem test_tx :
    nextIs (exec .wireRange5000 { ready 0 [] with
        phase := .tx, cmd := some range5000Frame, expect := some false, bcnt := some 8, csum := some 0x35 }) (fun t =>
      t.phase == .flush && t.txPending == [0xCB] && t.bcnt == none) = true ∧
    nextIs (exec .wireRecover { inRecover .tx [] with bcnt := some 0, csum := some 0 }) (fun t =>
      t.phase == .tx && t.txPending == [0xFF] && t.bcnt == some 1 && t.csum == some 0) = true := by decide

/-- R47, R96: a flush returns when nothing is pending, with the result OK; not before. -/
theorem test_flush :
    nextIs (exec .wireRecover (inRecover .flush [])) (fun t => t.ret == some .ok && t.acts == [.flush]) = true ∧
    nextIs (exec .wireRecover { inRecover .flush [] with txPending := [0x87] }) (fun t => t.ret == none && t.acts == []) = true ∧
    nextIs (exec .wireGetReading (inTick .flush [])) (fun t => t.phase == .rxWait && t.ret == none) = true := by decide

/-- X4: ten bytes are there, the oldest nine are the response, the tenth stays. X6: a silent line, the transport gives up. -/
theorem test_read :
    nextIs (exec .wireGetReading (inTick .rxWait [0xFF, 0x86, 0x01, 0x90, 0x41, 0x00, 0x00, 0x00, 0xA8, 0x55])) (fun t =>
      t.ret == some .ok && t.rsp == some ⟨0xFF, 0x86, 0x01, 0x90, 0x41, 0x00, 0x00, 0x00, 0xA8⟩ && t.rxq == [0x55]) = true ∧
    nextIs (exec .wireGetReading (inTick .rxWait [])) (fun t => t.ret == some .fail && t.rsp == none) = true := by decide

/-- X8: no input validation (R99): any frame is taken as it is. -/
theorem test_send_any_frame : nextIs (sendCommand ⟨0, 0, 0, 0, 0, 0, 0, 0⟩ false (ready 0 [])) (fun t =>
    t.phase == .drain && t.cmd.map wireFrame == some [0, 0, 0, 0, 0, 0, 0, 0, 0]) = true := by decide

/-- X9: a byte that arrives in the middle of TX survives the drain, and misaligns the read. -/
theorem test_send_misaligned :
    nextIs (step { inTick .tx [] with bcnt := some 3, csum := some 0x87, agenda := [.now (.env (.rx [0xBB]))] }) (fun t =>
      t.phase == .tx && t.rxq == [0xBB] && t.acts == []) = true ∧
    nextIs (step (inTick .rxWait [0xBB, 0xFF, 0x86, 0x03, 0xE8, 0x28, 0x00, 0x00, 0x00])) (fun t =>
      t.rsp == some ⟨0xBB, 0xFF, 0x86, 0x03, 0xE8, 0x28, 0x00, 0x00, 0x00⟩ && t.rxq == []) = true := by decide

/-- The frame an instruction sends, from the state given: the drain is entered and nothing is on the line yet. -/
def begins (i : Instr) (s : State) (bs : List Byte) : Bool :=
  nextIs (exec i s) (fun t => t.phase == .drain && t.cmd.map wireFrame == some bs && t.wire == [] && t.acts == [])

/-- The eight command frames (R71 to R77), and a response expected for the first alone. -/
theorem test_send_frames :
    begins .wireGetReading (ready 0 []) [0xFF, 0x01, 0x86, 0, 0, 0, 0, 0, 0x79] = true ∧
    begins .wireRange5000 (ready 0 []) [0xFF, 0x01, 0x99, 0, 0, 0, 0x13, 0x88, 0xCB] = true ∧
    begins .wireRange2000 (ready 0 []) [0xFF, 0x01, 0x99, 0, 0, 0, 0x07, 0xD0, 0x8F] = true ∧
    begins .wireRange10000 (ready 0 []) [0xFF, 0x01, 0x99, 0, 0, 0, 0x27, 0x10, 0x2F] = true ∧
    begins .wireAbcEnable (ready 0 []) [0xFF, 0x01, 0x79, 0xA0, 0, 0, 0, 0, 0xE6] = true ∧
    begins .wireAbcDisable (ready 0 []) [0xFF, 0x01, 0x79, 0, 0, 0, 0, 0, 0x86] = true ∧
    begins .wireCalibrateZero (ready 0 []) [0xFF, 0x01, 0x87, 0, 0, 0, 0, 0, 0x78] = true ∧
    begins .wireRecover (ready 0 []) [0xFF, 0x01, 0x78, 0, 0, 0, 0, 0, 0x87] = true ∧
    nextIs (exec .wireGetReading (ready 0 [])) (fun t => t.expect == some true) = true ∧
    nextIs (exec .wireRecover (ready 0 [])) (fun t => t.expect == some false) = true := by decide

/-! ### The response -/

/-- V4: the highest of everything; TEMP is 215, not -41. -/
theorem test_rsp_highest : nextIs (exec (.rspGetReading ⟨0xFF, 0x86, 0xFF, 0xFF, 0xFF, 0xFF, 0xFF, 0xFF, 0x80⟩) (ready 0 []))
    (fun t => t.co2 == some 0xFFFF && t.temp == some 0x00D7 && t.status == some 0xFF && !t.warning
      && t.pubs == [.co2 0xFFFF, .temp 0x00D7]) = true := by decide

/-- V9 and V3: a corrupted checksum is recorded; the lowest values, TEMP -40. -/
theorem test_rsp_checksum_and_lowest :
    nextIs (exec (.rspGetReading { v1 with cks := 0x68 }) (ready 0 [])) (fun t =>
      t.warning && t.wcause == .checksum && t.csCalc == some 0x67 && t.csRecv == some 0x68 && t.pubs == []) = true ∧
    nextIs (exec (.rspGetReading ⟨0xFF, 0x86, 0, 0, 0, 0, 0, 0, 0x7A⟩) (ready 0 [])) (fun t =>
      t.co2 == some 0 && t.temp == some 0xFFD8) = true := by decide

/-! ### TICK -/

/-- W6 and W7: closed at 999 ms, open at 1000 ms; in the window the queue is left alone. -/
theorem test_tick_window :
    nextIs (exec .tick (ready 999 [0xAA])) (fun t =>
      t.wcause == .warmup && t.warning && t.phase == .idle && t.rxq == [0xAA]) = true ∧
    begins .tick (ready 1000 [0xAA]) [0xFF, 0x01, 0x86, 0, 0, 0, 0, 0, 0x79] = true := by decide

/-- V13 and V15: a wrong preamble hides a wrong checksum; no search for FF 86. X6: a failed read ends the tick. -/
theorem test_tick_ends :
    nextIs (step { inTick .chkPre [] with rsp := some ⟨0xFF, 0x85, 0x03, 0xE8, 0x28, 0, 0, 0, 0x67⟩ }) (fun t =>
      t.wcause == .preamble && t.csCalc == none && t.pubs == [] && t.phase == .idle) = true ∧
    nextIs (step { inTick .chkPre [] with rsp := some ⟨0x00, 0x00, 0x00, 0xA8, 0xFF, 0x86, 0x01, 0x90, 0x41⟩ }) (fun t =>
      t.wcause == .preamble) = true ∧
    nextIs (step { inTick .rxWait [] with ret := some .fail }) (fun t =>
      t.wcause == .transport && t.warning && t.phase == .idle) = true := by decide

/-! ### The operations (O1 to O8, B1 to B7, F1 to F3) -/

theorem test_op_recover : begins .recover (ready 0 [0xAA]) [0xFF, 0x01, 0x78, 0, 0, 0, 0, 0, 0x87] = true := by decide
theorem test_op_calibrate_zero : begins .calibrateZero (ready 0 []) [0xFF, 0x01, 0x87, 0, 0, 0, 0, 0, 0x78] = true := by decide
theorem test_op_abc_enable : begins .abcEnable (ready 0 []) [0xFF, 0x01, 0x79, 0xA0, 0, 0, 0, 0, 0xE6] = true := by decide
theorem test_op_abc_disable : begins .abcDisable (ready 0 []) [0xFF, 0x01, 0x79, 0, 0, 0, 0, 0, 0x86] = true := by decide
theorem test_op_set_range_2000 :
    begins .setRange2000 (ready 0 []) [0xFF, 0x01, 0x99, 0, 0, 0, 0x07, 0xD0, 0x8F] = true := by decide
theorem test_op_set_range_5000 :
    begins .setRange5000 (ready 0 []) [0xFF, 0x01, 0x99, 0, 0, 0, 0x13, 0x88, 0xCB] = true := by decide
theorem test_op_set_range_10000 :
    begins .setRange10000 (ready 0 []) [0xFF, 0x01, 0x99, 0, 0, 0, 0x27, 0x10, 0x2F] = true := by decide
theorem test_op_set_range_default : nextIs (exec .setRangeDefault (ready 0 [0xAA, 0xBB])) (fun t =>
    t == ready 0 [0xAA, 0xBB]) = true := by decide

/-- A command that has returned is over, and leaves the flag alone. -/
theorem test_op_over : nextIs (step { inRecover .flush [] with ret := some .ok, warning := true, wcause := .warmup }) (fun t =>
    t.phase == .idle && t.op == none && t.warning && t.wcause == .warmup) = true := by decide

/-- B1, B2: nothing at all for "unspecified"; the ABC frame for "enabled". -/
theorem test_boot_policy :
    nextIs (exec .boot (fresh .unspecified .r5000 false)) (fun t =>
      t.wire == [] && t.rxq == [0xAA, 0xBB] && t.bootDone && t.phase == .idle) = true ∧
    begins .boot (fresh .enabled .default false) [0xFF, 0x01, 0x79, 0xA0, 0, 0, 0, 0, 0xE6] = true := by decide

/-- B7: the ABC frame first, the range second; then BOOT is done. -/
theorem test_boot_range :
    begins .boot (fresh .disabled .r2000 true) [0xFF, 0x01, 0x79, 0, 0, 0, 0, 0, 0x86] = true ∧
    nextIs (step { fresh .disabled .r2000 true with phase := .flush, op := some .boot, ret := some .ok, rangeLeft := true })
      (fun t => t.phase == .drain && t.cmd.map wireFrame == some [0xFF, 0x01, 0x99, 0, 0, 0, 0x07, 0xD0, 0x8F]
        && !t.bootDone) = true ∧
    nextIs (step { fresh .disabled .r2000 true with phase := .flush, op := some .boot, ret := some .ok }) (fun t =>
      t.phase == .idle && t.bootDone) = true := by decide

/-- F1 to F3. -/
theorem test_refused_requests :
    nextIs (exec .tick State.reset) (fun t => t == State.reset) = true ∧
    nextIs (exec .recover State.reset) (fun t => t == State.reset) = true ∧
    nextIs (exec .boot { ready 0 [] with cfg := { resetConfiguration with abcBoot := .enabled } }) (fun t =>
      t.phase == .idle && t.wire == []) = true := by decide

/-! ### The step and the ports -/

/-- A line is taken when the framer is IDLE; in the middle of an operation it waits, and the framer moves. -/
theorem test_step_request :
    nextIs (step { ready 0 [] with agenda := [.line (.request 6 2)] }) (fun t =>
      t.agenda == [] && t.op == some (.setRange .r5000) && t.phase == .drain) = true ∧
    nextIs (step { inRecover .drain [0xAA] with agenda := [.line (.request 6 2)] }) (fun t =>
      t.agenda == [.line (.request 6 2)] && t.acts == [.pop 0xAA]) = true := by decide

theorem test_step_first_words :
    nextIs (step (State.reset.withFetchWord 6 0x00)) (fun t => t.bootDone) = true ∧
    nextIs (step (State.reset.withFetchWord 6 0x08)) (fun t => t.op == some .recover && t.phase == .drain) = true ∧
    nextIs (step (State.reset.withFetchWord 72 0xFF0179A000000000E6)) (fun t => t.phase == .tx) = true ∧
    nextIs (step (State.reset.withFetchWord 72 0xFF8603E82800000067)) (fun t => t.status == some 0) = true := by decide

theorem test_ports : (outPorts State.reset).opReady = true ∧ (outPorts State.reset).wcause = 0 ∧
    (configOfPorts 75 3 2 true false).abcBoot = .unspecified ∧ (configOfPorts 75 1 2 true false).range = .r5000 := by decide

/-- R36, R170: `now_ms` up to the last value that fits; beyond it the view shows none (log entry 29). -/
theorem test_now_port : nowPort (ready (2 ^ 32 - 1) []) = some 0xFFFFFFFF ∧ nowPort (ready (2 ^ 32) []) = none := by decide

/-- The strobes of the step from `s`. -/
def strobed (s : State) (p : Strobes → Bool) : Bool := nextIs (step s) (fun t => p (strobes s t))

/-- R36: `op_done` for a tick that ends in the step that took it, not for a reset; `tx_flush` before the flush returns. -/
theorem test_strobes :
    strobed { ready 0 [] with agenda := [.line (.request 1 0)] } (fun o => o.opDone) = true ∧
    strobed { inTick .rxWait [] with agenda := [.now .reset] } (fun o => !o.opDone) = true ∧
    strobed { State.reset with agenda := [.line (.request 1 0)] } (fun o => !o.opDone) = true ∧
    strobed { inRecover .tx [] with bcnt := some 8, csum := some 0x79 } (fun o => o.txFlush && o.txData == some 0x87) = true ∧
    strobed (inTick .flush []) (fun o => o.rxRead9Start && !o.txFlush) = true := by decide

/-- A reset in the middle of TX leaves a partial frame on the line (R182): after three pushes. -/
theorem test_reset_midway : nextIs (step { inRecover .tx [] with
      bcnt := some 3, csum := some 0x79, txPending := [0xFF, 0x01, 0x78], agenda := [.now .reset] }) (fun t =>
    t.phase == .idle && t.bcnt == none && !t.bootDone && t.txPending == [0xFF, 0x01, 0x78]) = true := by decide

/-! ### Witnesses: for each statement with hypotheses, a state and operands that meet them -/

theorem quiet_fair (now : Nat) (q : List Byte) : Quiet (ready now q) ∧ Fair (ready now q) := ⟨.inl rfl, rfl, rfl⟩

/-- Both forms of a quiet agenda. -/
theorem witness_quiet (m : Move) : Quiet (ready 0 []) ∧ Quiet { ready 0 [] with agenda := [.line m] } :=
  ⟨.inl rfl, .inr ⟨m, [], rfl⟩⟩

theorem witness_decodeOfEncode : paramsWellFormed defaultParams = true ∧ framesDistinct defaultParams = true ∧
    (Instr.rspGetReading v1).wellFormed = true ∧ Instr.wireRecover.wellFormed = true := by decide

theorem witness_encodeOfDecode :
    decode defaultParams [0xFF, 0x01, 0x78, 0, 0, 0, 0, 0, 0x87] = .ok .wireRecover ∧
    decode defaultParams [0x07] = .ok .tick := by decide

theorem witness_opRange : (1 : BitVec 4) ≠ 6 ∧ (0 : BitVec 2) ≠ 3 := by decide

/-- A matching frame, with the changed positions at both ends of their ranges. -/
theorem witness_checksum_law : (rspBytes v1).length = 9 ∧ (rspBytes v1)[8]! = checksum (rspBytes v1) ∧
    (0x87 : Byte) ≠ (rspBytes v1)[1]! ∧ (0x68 : Byte) ≠ (rspBytes v1)[8]! ∧ 1 ≤ 1 ∧ 1 < 8 := by decide

/-- Arrays for each corner of the closed forms: the wrapped sums 00, FF, 01, 80. -/
theorem witness_checksum_corners :
    (0x00 : Byte) + 0 + 0 + 0 + 0 + 0 + 0 = 0x00 ∧ (0x86 : Byte) + 0 + 0 + 0x79 + 0 + 0 + 0 = 0xFF ∧
    (0x01 : Byte) + 0 + 0 + 0 + 0 + 0 + 0 = 0x01 ∧ (0x80 : Byte) + 0 + 0 + 0 + 0 + 0 + 0 = 0x80 := by decide

theorem witness_wireFrames : (ready 0 [0xAA]).phase = .idle ∧ Quiet (ready 0 [0xAA]) ∧ Fair (ready 0 [0xAA]) :=
  ⟨rfl, quiet_fair _ _⟩

theorem witness_wireAnswered : (answering (rspBytes v1 ++ [0x55])).phase = .idle ∧
    Quiet (answering (rspBytes v1 ++ [0x55])) ∧ Fair (answering (rspBytes v1 ++ [0x55])) ∧
    (answering (rspBytes v1 ++ [0x55])).onFlush = rspBytes v1 ++ [0x55] := ⟨rfl, .inl rfl, ⟨rfl, rfl⟩, rfl⟩

/-- Eight bytes, the longest short answer, and both ways to give up. -/
theorem witness_wireFails : Quiet (answering (List.replicate 8 0xFF)) ∧ Fair (answering (List.replicate 8 0xFF)) ∧
    (answering (List.replicate 8 0xFF)).onFlush.length < 9 ∧ (answering []).params.transportBlocking = false ∧
    moveAhead (answering []) = false ∧ { answering [] with giveUp := true }.giveUp = true :=
  ⟨.inl rfl, ⟨rfl, rfl⟩, by decide, rfl, rfl, rfl⟩

/-- Each clause of ExchangeSteps, the counts of TX at both ends: 0 and 7 push a byte of CMD, 8 the checksum. -/
theorem witness_exchangeSteps :
    wireRow defaultParams .wireGetReading = some (getReadingFrame, true) ∧
    wireRow defaultParams .wireRecover = some (defaultParams.recover, false) ∧
    (inTick .drain [0xAA]).rxq = [0xAA] ∧ (inTick .drain []).rxq = [] ∧ (inTick .tx []).ret = none ∧
    (cmdBytes getReadingFrame)[(0 : BitVec 4).toNat]? = some 0xFF ∧
    (cmdBytes getReadingFrame)[(7 : BitVec 4).toNat]? = some 0x00 ∧ 8 ≤ (8 : BitVec 4).toNat ∧
    { inTick .flush [] with txPending := [0x79] }.txPending ≠ [] ∧ (inTick .flush []).txPending = [] ∧
    (inTick .rxWait (rspBytes v1)).rxq = rspBytes v1 ++ [] ∧ (inTick .rxWait (List.replicate 8 0)).rxq.length < 9 ∧
    readWaits (inTick .rxWait []) = false ∧
    readWaits { inTick .rxWait [] with agenda := [.line (.env .sent)] } = true := by decide

/-- An exec of a wire frame that gives a next state: at its beginning, and in RXWAIT. -/
theorem witness_exchangeLeaves :
    nextIs (exec .wireRecover (ready 0 [])) (fun t => t.phase == .drain) = true ∧
    nextIs (exec .wireGetReading (inTick .rxWait (rspBytes v1))) (fun t => t.rsp == some v1) = true := by decide

/-! ### States of a TICK that meet the invariants -/

theorem inTick_exchange (p : Phase) (q : List Byte) : InExchange (inTick p q) :=
  ⟨.wireGetReading, getReadingFrame, true, rfl, rfl, rfl, by simp [inTick], by simp [inTick]⟩

/-- A TICK about to push byte 7, a stale byte popped before. -/
def pushing : State :=
  { inTick .tx [] with
    bcnt := some 7, csum := some 0x87, acts := [Act.pop 0xAA] ++ ((cmdBytes getReadingFrame).take 7).map .push,
    txPending := (cmdBytes getReadingFrame).take 7 }

/-- A TICK whose read has failed; it ends in the next step. -/
def failed : State :=
  { inTick .rxWait [] with
    ret := some .fail, acts := exchangeActs getReadingFrame [0xAA] ++ [.readFail []], wire := wireFrame getReadingFrame }

/-- A TICK whose read was answered with `r`; it ends in the next step. -/
def answered (r : RspFrame) : State :=
  { inTick .chkPre [] with
    rsp := some r, acts := exchangeActs getReadingFrame [] ++ [.readOk r], wire := wireFrame getReadingFrame }

theorem pushing_inv : SequencerInv pushing ∧ InOrder pushing := by
  refine ⟨⟨⟨inTick_exchange .tx [], rfl, rfl, getReadingFrame, 7, rfl, rfl, by decide, by decide⟩, ?_, ?_, ?_⟩,
    ⟨[], _, ?_, (List.nil_append _).symm, getReadingFrame, 7, rfl, rfl, [0xAA], rfl⟩, ⟨[], by decide⟩, ?_⟩ <;>
    simp [pushing, inTick, ready, State.reset, flushed]

theorem failed_inv : SequencerInv failed ∧ InOrder failed := by
  refine ⟨⟨⟨inTick_exchange .rxWait [], rfl, rfl, rfl, .inr (.inr ⟨rfl, rfl⟩)⟩, ?_, ?_, ?_⟩,
    ⟨[], _, ?_, (List.nil_append _).symm, getReadingFrame, rfl, [0xAA], .inr (.inr ⟨rfl, [], rfl⟩)⟩, ⟨[], by decide⟩, ?_⟩ <;>
    simp [failed, inTick, ready, State.reset]

theorem answered_inv (r : RspFrame) : SequencerInv (answered r) ∧ InOrder (answered r) := by
  refine ⟨⟨⟨inTick_exchange .chkPre [], rfl, rfl, rfl, rfl, ?_⟩, ?_, ?_, ?_⟩,
    ⟨[], _, ?_, (List.nil_append _).symm, getReadingFrame, r, rfl, rfl, [], rfl⟩, ⟨[], ?_⟩, ?_⟩ <;>
    simp [answered, inTick, ready, State.reset, exchangeActs, pushes, wireFrame, cmdBytes]

/-- A step under the invariants: the push of byte 7. -/
theorem witness_inOrder : SequencerInv pushing ∧ InOrder pushing ∧
    nextIs (step pushing) (fun t => t.bcnt == some 8 && t.txPending.length == 8) = true :=
  ⟨pushing_inv.1, pushing_inv.2, by decide⟩

/-- A machine behind a transport that blocks. -/
def blocking (bs : List Byte) : State :=
  { answering bs with params := { defaultParams with transportBlocking := true } }

/-- A tick that waits in RXWAIT behind such a transport. -/
def waiting (agenda : List Event) : State :=
  { inTick .rxWait [] with params := { defaultParams with transportBlocking := true }, agenda := agenda }

theorem witness_blocking : (waiting []).params.transportBlocking = true ∧
    nextIs (step (waiting [])) (fun t => t.ret == none) = true ∧
    nextIs (step { waiting [] with rxq := rspBytes v1 }) (fun t => t.ret == some .ok) = true := by decide

theorem witness_responses :
    (v1.pre = 0xFF ∧ v1.echo = 0x86 ∧ v1.cks = checksum (rspBytes v1)) ∧
    { v1 with pre := 0xFE }.pre ≠ 0xFF ∧ { v1 with echo := 0x87 }.echo ≠ 0x86 ∧
    { v1 with cks := 0x68 }.cks ≠ checksum (rspBytes { v1 with cks := 0x68 }) := by decide

/-- The last millisecond of the window, and its end. -/
theorem witness_tick : Machine.ready (ready 999 []) = true ∧ Quiet (ready 1000 []) ∧ Fair (ready 1000 []) ∧
    clockInRange (ready 1000 []) = true ∧ (ready 999 []).nowMs < 2 ^ (ready 999 []).params.clockBits ∧
    (ready 999 []).cfg.warmupS.toNat * 1000 < 2 ^ (ready 999 []).params.clockBits ∧
    (ready 999 []).nowMs < (ready 999 []).cfg.warmupS.toNat * 1000 ∧
    (ready 1000 []).cfg.warmupS.toNat * 1000 ≤ (ready 1000 []).nowMs :=
  ⟨by decide, (quiet_fair _ _).1, (quiet_fair _ _).2, by decide, by decide, by decide, by decide, by decide⟩

theorem witness_tick_answers : Machine.ready (answering (rspBytes v1)) = true ∧ clockInRange (answering (rspBytes v1)) = true ∧
    Quiet (answering (rspBytes v1)) ∧ Fair (answering (rspBytes v1)) ∧ accepted v1 = true ∧
    (answering (rspBytes v1)).onFlush = rspBytes v1 ++ [] ∧
    { v1 with echo := 0x85 }.hasPreamble = false ∧ { v1 with cks := 0x68 }.hasPreamble = true ∧
    checksumMatches { v1 with cks := 0x68 } = false :=
  ⟨by decide, by decide, .inl rfl, ⟨rfl, rfl⟩, by decide, by decide, by decide, by decide, by decide⟩

/-- A TICK for each of the five ends: one in the step that takes it, four in a later step, under the invariants. -/
theorem witness_tick_ends :
    nextIs (exec .tick (ready 0 [])) (fun t => t.phase == .idle && t.wcause == .warmup) = true ∧
    nextIs (step failed) (fun t => t.phase == .idle && t.wcause == .transport) = true ∧
    nextIs (step (answered { v1 with pre := 0 })) (fun t => t.phase == .idle && t.wcause == .preamble) = true ∧
    nextIs (step (answered { v1 with cks := 0 })) (fun t => t.phase == .idle && t.wcause == .checksum) = true ∧
    nextIs (step (answered v1)) (fun t => t.phase == .idle && t.wcause == .none && !t.warning) = true := by decide

theorem witness_noReset (r : RspFrame) : ¬ResetTaken (answered r) ∧ ¬ResetTaken failed ∧ ¬ResetTaken pushing := by
  simp [ResetTaken, Taken, answered, failed, pushing, inTick, ready, State.reset]

/-- A step that fails a tick, and one after which the tick is not over. -/
theorem witness_failedTick :
    SequencerInv failed ∧ nextIs (step failed) (fun t => t.warning) = true ∧
    SequencerInv pushing ∧ nextIs (step pushing) (fun t => t.phase != .idle) = true :=
  ⟨failed_inv.1, by decide, pushing_inv.1, by decide⟩

/-- Ready machines, and machines at the same point of a tick, with the same surroundings and different outputs. -/
theorem witness_tick_independent : Machine.ready (ready 1000 []) = true ∧
    Machine.ready { ready 1000 [] with warning := true, wcause := .checksum, co2 := some 7 } = true ∧
    SameSurroundings (ready 1000 []) { ready 1000 [] with warning := true, wcause := .checksum, co2 := some 7 } ∧
    pushing.phase ≠ .idle ∧ pushing.op = some .tick ∧ SamePoint pushing { pushing with warning := true, status := some 9 } ∧
    SamePoint (answered v1) { answered v1 with co2 := some 9 } :=
  ⟨by decide, by decide, by simp [SameSurroundings], by decide, rfl, by simp [SamePoint, SameSurroundings],
    by simp [SamePoint, SameSurroundings]⟩

/-- Each bound of the clock, reached exactly. -/
theorem witness_tick_beyond :
    2 ^ 32 ≤ (ready (2 ^ 32) []).nowMs ∧ Machine.ready (ready (2 ^ 32) []) = true ∧
    2 ^ (ready 0 []).params.clockBits ≤ (4294968#32).toNat * 1000 := ⟨le_refl _, rfl, by decide⟩

theorem witness_idealSensor :
    (answering [0xFF, 0x86, 0x01, 0x90, 0x41, 0x00, 0, 0, 0xA8]).onFlush =
      [0xFF, 0x86, 0x01, 0x90, 0x41, 0x00, 0x00, 0x00, checksum [0xFF, 0x86, 0x01, 0x90, 0x41, 0x00, 0x00, 0x00]] ∧
    Quiet (answering [0xFF, 0x86, 0x01, 0x90, 0x41, 0x00, 0, 0, 0xA8]) ∧
    Fair (answering [0xFF, 0x86, 0x01, 0x90, 0x41, 0x00, 0, 0, 0xA8]) := ⟨by decide, .inl rfl, rfl, rfl⟩

/-- An on-demand command that answers a next state, inside the warm-up window. -/
theorem witness_onDemand : Machine.ready (ready 0 []) = true ∧ Quiet (ready 0 []) ∧ Fair (ready 0 []) ∧
    nextIs (exec .recover (ready 0 [])) (fun t => t.phase == .drain) = true :=
  ⟨by decide, (quiet_fair _ _).1, (quiet_fair _ _).2, by decide⟩

/-- A machine that takes BOOT, for every policy, range and value of the parameter. -/
theorem witness_boot (a : AbcPolicy) (r : Range) (b : Bool) : bootable (fresh a r b) = true ∧ Quiet (fresh a r b) ∧
    Fair (fresh a r b) := ⟨rfl, .inl rfl, rfl, rfl⟩

theorem witness_boot_taken : nextIs (exec .boot (fresh .enabled .r2000 true)) (fun t => t.rangeLeft) = true := by decide

/-- Steps of the machine's own: nothing to come, a turn, a line that waits. -/
theorem witness_ownStep (m : Move) : OwnStep failed failed ∧
    OwnStep { failed with agenda := [.turn] } { failed with agenda := [] } ∧
    OwnStep { failed with agenda := [.line m] } { failed with agenda := [.line m] } :=
  ⟨.inl ⟨rfl, rfl⟩, .inr (.inl ⟨[], rfl, rfl⟩), .inr (.inr ⟨m, [], rfl, rfl, rfl⟩)⟩

/-- Each clause of ReturnedExchangeGoesOn. -/
theorem witness_returned : (failed.op = some .tick ∧ failed.ret = some .fail ∧ failed.phase ≠ .idle) ∧
    { inTick .rxWait [] with ret := some .ok, rsp := some v1 }.ret = some .ok ∧
    rangeFrame defaultParams .default = none ∧ rangeFrame defaultParams .r2000 = some defaultParams.range2000 ∧
    ({ inRecover .flush [] with ret := some .ok }.op ≠ some .tick ∧
      { inRecover .flush [] with ret := some .ok }.op ≠ some .boot) := by decide

/-- Requests the framer refuses: each operation too early or too late, the codes 7 and 15, one in the middle of an operation. -/
theorem witness_refused : bootable (ready 0 []) = false ∧ Machine.ready State.reset = false ∧ 7 ≤ (7 : BitVec 4).toNat ∧
    7 ≤ (15 : BitVec 4).toNat ∧ (ready 0 []).phase = .idle ∧ pushing.phase ≠ .idle := by decide

/-- A move taken: at once, at a line of an idle machine, at a line of one that waits. -/
theorem witness_taken (m : Move) : Taken { pushing with agenda := [.now m] } m [] ∧
    Taken { ready 0 [] with agenda := [.line m] } m [] ∧ Taken (waiting [.line m]) m [] :=
  ⟨.inl rfl, .inr ⟨rfl, rfl⟩, .inr ⟨rfl, rfl⟩⟩

theorem witness_onePrimitive : nextIs (step pushing) (fun t => t.acts.length == pushing.acts.length + 1) = true ∧
    nextIs (step { pushing with agenda := [.now .reset] }) (fun t => t.acts == []) = true := by decide

theorem witness_stepRequest : (ready 0 []).phase = .idle ∧
    decode (ready 0 []).params [requestWord 6 3] = .ok .setRange10000 := by decide

/-- In an exchange, and at a validation. -/
theorem witness_stepFrame :
    owedMove (inRecover .drain []) = none ∧ exchanging (inRecover .drain []).phase = true ∧
    (inRecover .drain []).ret = none ∧ decode defaultParams (wireFrame defaultParams.recover) = .ok .wireRecover ∧
    (wireRow defaultParams .wireRecover).map Prod.snd = some false ∧
    decode defaultParams (wireFrame getReadingFrame) = .ok .wireGetReading ∧
    (wireRow defaultParams .wireGetReading).map Prod.snd = some true ∧
    (answered v1).phase = .chkPre ∧ (answered v1).ret = none ∧
    decode defaultParams (rspBytes v1) = .ok (.rspGetReading v1) := by decide

theorem witness_runOver : RunOver (ready 0 []) := ⟨rfl, rfl⟩

/-- The moves of the environment, a byte pending or none; and the byte a waiting flush is owed. -/
theorem witness_environment : { pushing with agenda := [.now (.env .sent)] }.txPending ≠ [] ∧ (ready 0 []).txPending = [] ∧
    { inTick .flush [] with txPending := [0x79] }.stalls = false ∧
    owedMove { inTick .flush [] with txPending := [0x79] } = some .sent := by decide

/-- Steps that move the receive stream: a byte arrives, a pop, an armed reply, a flood, a failing read, a reset. -/
theorem witness_receive :
    nextIs (step { pushing with agenda := [.now (.env (.rx [1, 2]))] }) (fun t => t.rxq == [1, 2]) = true ∧
    nextIs (step (inTick .drain [1, 2])) (fun t => t.rxq == [2]) = true ∧
    nextIs (step { inTick .flush [] with onFlush := [3] }) (fun t => t.rxq == [3]) = true ∧
    nextIs (step { inTick .drain [] with floods := some 4 }) (fun t => t.rxq == [4]) = true ∧
    nextIs (step (inTick .rxWait [5])) (fun t => t.ret == some .fail) = true ∧
    nextIs (step { inTick .rxWait [6] with agenda := [.now .reset] }) (fun t => t.rxq == [6]) = true := by decide

/-- Steps for the statements about what a step keeps: the clock advances, a byte goes out, a reset line is not yet taken. -/
theorem witness_stepKeeps :
    nextIs (step { ready 0 [] with agenda := [.line (.env (.advance 5))] }) (fun t => t.nowMs == 5 && t.bootDone) = true ∧
    nextIs (step { inTick .flush [] with txPending := [0x79] }) (fun t => t.wire == [0x79]) = true ∧
    nextIs (step { pushing with agenda := [.line .reset] }) (fun t => t.bootDone && t.agenda == [.line .reset]) = true := by
  decide

theorem witness_lineReset_notTaken : ¬ResetTaken { pushing with agenda := [.line .reset] } := by
  simp [ResetTaken, Taken, lineOpen, waits, pushing, inTick]

theorem witness_config : { State.reset with agenda := [.line (.config resetConfiguration)] }.phase = .idle ∧
    State.reset.bootDone = false ∧ (ready 0 []).bootDone = true ∧ pushing.phase ≠ .idle := by decide

/-- A reset taken while IDLE, while the framer waits, and in the middle of TX. -/
theorem witness_reset : Taken { ready 0 [] with agenda := [.line .reset] } .reset [] ∧ Taken (waiting [.line .reset]) .reset [] ∧
    Taken { pushing with agenda := [.now .reset] } .reset [] := ⟨.inr ⟨rfl, rfl⟩, .inr ⟨rfl, rfl⟩, .inl rfl⟩

/-- Steps for each strobe: none at a reset, the end of an operation, a tick taken and over, a pop, a push, the last push, a flush
before a read, an answered and a failed read, both publish events. -/
theorem witness_strobes :
    strobed { pushing with agenda := [.now .reset] } (fun o => !o.opDone && o.txData == none) = true ∧
    strobed failed (fun o => o.opDone) = true ∧
    strobed { ready 0 [] with agenda := [.now (.request 1 0)] } (fun o => o.opDone) = true ∧
    strobed (inTick .drain [1]) (fun o => o.rxPop == [1]) = true ∧ strobed pushing (fun o => o.txData == some 0) = true ∧
    strobed { inTick .tx [] with bcnt := some 8, csum := some 0x87 } (fun o => o.txFlush && o.txData == some 0x79) = true ∧
    strobed (inTick .flush []) (fun o => o.rxRead9Start && o.rxPop == [] && o.txData == none) = true ∧
    strobed (inTick .rxWait (rspBytes v1)) (fun o => o.rxPop == rspBytes v1) = true ∧
    strobed (inTick .rxWait []) (fun o => o.rxPop == [] && o.txData == none) = true ∧
    strobed (answered v1) (fun o => o.opDone && o.co2Pub == some 1000 && o.tempPub == some 0) = true := by decide

theorem witness_silent : Machine.ready (blocking (List.replicate 8 0)) = true ∧ (blocking []).agenda = [] ∧ Fair (blocking []) ∧
    clockInRange (blocking []) = true ∧ (blocking []).cfg.warmupS.toNat * 1000 ≤ (blocking []).nowMs ∧
    (blocking []).params.transportBlocking = true ∧ (blocking (List.replicate 8 0)).onFlush.length < 9 :=
  ⟨by decide, rfl, ⟨rfl, rfl⟩, by decide, by decide, rfl, by decide⟩

theorem witness_stalled : Machine.ready { ready 0 [] with stalls := true } = true ∧
    { ready 0 [] with stalls := true }.floods = none := by decide

theorem witness_flooded : { inRecover .drain [0xAA] with floods := some 0xAA }.phase = .drain ∧
    { inRecover .drain [0xAA] with floods := some 0xAA }.rxq = [0xAA] ∧ (inRecover .drain [0xAA]).agenda = [] := by decide

theorem waiting_inv : SequencerInv (waiting []) := by
  refine ⟨⟨⟨.wireGetReading, getReadingFrame, true, rfl, rfl, rfl, ?_, ?_⟩, rfl, rfl, rfl, .inl ⟨rfl, rfl⟩⟩, ?_, ?_, ?_⟩ <;>
    simp [waiting, inTick, ready, State.reset]

/-- A framer that is stuck, and one whose run is over; both rest. -/
theorem witness_rests : SequencerInv (waiting []) ∧ Stuck (waiting []) ∧
    nextIs (step (waiting [])) (fun t => t == waiting []) = true ∧
    nextIs (step (ready 0 [])) (fun t => t == ready 0 []) = true :=
  ⟨waiting_inv, ⟨rfl, rfl⟩, by decide, by decide⟩

/-- An accepted response, with the warning set, that meets the invariants: the next step clears the warning. -/
def warned : State := { answered v1 with warning := true, wcause := .warmup }

theorem witness_invariants : SequencerInv warned ∧ FramesOnly warned ∧ PublishesTrusted warned := by
  refine ⟨⟨(answered_inv v1).1.shape, ?_, (answered_inv v1).1.booted, (answered_inv v1).1.range⟩, ⟨[getReadingFrame], ?_⟩, ?_⟩ <;>
    simp [warned, answered, inTick, ready, State.reset, exchangeActs, pushes, wireFrame, cmdBytes, PublishesTrusted, tableFrames,
      wireTable]

theorem witness_clears : warned.warning = true ∧ nextIs (step warned) (fun t => !t.warning) = true := by decide

/-- FramesOnly in the middle of a frame. -/
theorem witness_framesOnly : FramesOnly pushing := ⟨[], by simp, rfl⟩

/-- A step that is no part of a TICK. -/
theorem witness_notTick : nextIs (step { ready 0 [] with warning := true, wcause := .warmup, agenda := [.line (.request 2 0)] })
    (fun t => t.warning) = true ∧ (ready 0 []).op ≠ some .tick := by decide

end Sys2Proof.Tests
end

/-!
The statements of the family 00_scope: what every step keeps (O37), one primitive per step (O52), the strobes of the ports
(O57). The three share one view of a step, `StepKind`, which groups the cases of `StepTo` by what they may do to the line, the
record of the primitives and the publish events.
-/

namespace Sys2Proof.Proofs

open Sys2Proof Sys2Proof.Machine

/-! ### Publish events -/

/-- From `old` on, `t` has at most one publish event of each kind, and the outputs hold its value (R30, R116). -/
def Publishes (old : List Publish) (t : State) : Prop :=
  ∃ ps, t.pubs = old ++ ps ∧
    (∀ v, publishedCo2 ps = some v ↔ .co2 v ∈ ps) ∧ (∀ v, publishedTemp ps = some v ↔ .temp v ∈ ps) ∧
    (∀ v, .co2 v ∈ ps → t.co2 = some v) ∧ (∀ v, .temp v ∈ ps → t.temp = some v)

theorem publishes_nothing {old : List Publish} {t : State} (h : t.pubs = old) : Publishes old t :=
  ⟨[], by simp [h, publishedCo2, publishedTemp]⟩

theorem latch_publishes (r : RspFrame) (s : State) : Publishes s.pubs (latch r s) := by
  rw [latch_eq]
  refine ⟨(if s.cfg.co2SinkEn then [.co2 (co2Word r)] else []) ++ (if s.cfg.tempSinkEn then [.temp (tempWord r)] else []),
    List.append_assoc _ _ _, ?_⟩
  rcases s.cfg.co2SinkEn <;> rcases s.cfg.tempSinkEn <;> simp [publishedCo2, publishedTemp, eq_comm]

/-! ### The steps that perform no primitive -/

/-- What the framer's steps outside an exchange leave alone: time, the line, the record of the primitives, the configuration;
and they enter no phase of an exchange but its first. -/
structure Bookkeeps (s t : State) : Prop where
  params : t.params = s.params
  cfg : t.cfg = s.cfg
  boot : s.bootDone = true → t.bootDone = true
  nowMs : t.nowMs = s.nowMs
  txPending : t.txPending = s.txPending
  wire : t.wire = s.wire
  acts : t.acts = s.acts
  phase : exchanging t.phase = true → t.phase = .drain
  pubs : Publishes s.pubs t

theorem warn_bookkeeps (c : Cause) (s : State) : Bookkeeps s (warn c s) :=
  ⟨rfl, rfl, id, rfl, rfl, rfl, rfl, nofun, publishes_nothing rfl⟩

theorem startExchange_bookkeeps (f : CmdFrame) (e : Bool) (s : State) : Bookkeeps s (startExchange f e s) :=
  ⟨rfl, rfl, id, rfl, rfl, rfl, rfl, fun _ => rfl, publishes_nothing rfl⟩

theorem latch_bookkeeps (r : RspFrame) (s : State) : Bookkeeps s (latch r s) := by
  refine ⟨?_, ?_, ?_, ?_, ?_, ?_, ?_, ?_, latch_publishes r s⟩ <;> simp [latch_eq, exchanging]

/-- The fields `Bookkeeps` speaks of are those of the earlier state: a step may begin from an intermediate state that differs
from it in other fields. -/
theorem Bookkeeps.of_same {s s' t : State} (h : Bookkeeps s' t) (hp : s'.params = s.params := by rfl)
    (hc : s'.cfg = s.cfg := by rfl) (hb : s'.bootDone = s.bootDone := by rfl) (hn : s'.nowMs = s.nowMs := by rfl)
    (ht : s'.txPending = s.txPending := by rfl) (hw : s'.wire = s.wire := by rfl) (ha : s'.acts = s.acts := by rfl)
    (hq : s'.pubs = s.pubs := by rfl) : Bookkeeps s t :=
  ⟨h.params.trans hp, h.cfg.trans hc, hb ▸ h.boot, h.nowMs.trans hn, h.txPending.trans ht, h.wire.trans hw, h.acts.trans ha,
    h.phase, hq ▸ h.pubs⟩

theorem checkSum_bookkeeps (r : RspFrame) (s : State) : Bookkeeps s (checkSum r s) := by
  unfold checkSum
  split
  · exact (latch_bookkeeps r _).of_same
  · exact (warn_bookkeeps _ _).of_same

theorem checkPreamble_bookkeeps (r : RspFrame) (s : State) : Bookkeeps s (checkPreamble r s) := by
  unfold checkPreamble
  split
  · exact (checkSum_bookkeeps r _).of_same
  · exact warn_bookkeeps _ s

theorem finish_bookkeeps (s : State) : Bookkeeps s (finish s) :=
  ⟨rfl, rfl, id, rfl, rfl, rfl, rfl, nofun, publishes_nothing rfl⟩

theorem bootEnd_bookkeeps (s : State) : Bookkeeps s (bootEnd s) :=
  ⟨rfl, rfl, fun _ => rfl, rfl, rfl, rfl, rfl, nofun, publishes_nothing rfl⟩

theorem requestTo_bookkeeps {i : Instr} {s t : State} (hp : s.phase = .idle) (h : RequestTo i s t) : Bookkeeps s t := by
  cases h with
  | nothing => exact ⟨rfl, rfl, id, rfl, rfl, rfl, rfl, by simp [hp, exchanging], publishes_nothing rfl⟩
  | warms => exact warn_bookkeeps _ s
  | ticks | commands | boots => exact (startExchange_bookkeeps _ _ _).of_same
  | bootEnds => exact bootEnd_bookkeeps s

/-- The framer's own step is a step of the exchange in progress, or performs no primitive. -/
theorem resumeTo_bookkeeps_or_exchange {s t : State} (h : ResumeTo s t) :
    Bookkeeps s t ∨ ∃ f e, ExchangeTo f e s t := by
  cases h with
  | tickFails => exact .inl (warn_bookkeeps _ s)
  | tickReads => exact .inl ⟨rfl, rfl, id, rfl, rfl, rfl, rfl, nofun, publishes_nothing rfl⟩
  | bootSends => exact .inl ((startExchange_bookkeeps _ _ _).of_same)
  | bootEnds => exact .inl (bootEnd_bookkeeps s)
  | commandEnds => exact .inl (finish_bookkeeps s)
  | gate t hp h =>
    rcases tickGate_next h with rfl | rfl
    · exact .inl (warn_bookkeeps _ s)
    · exact .inl (startExchange_bookkeeps _ _ s)
  | validates r => exact .inl (checkPreamble_bookkeeps r s)
  | sums r => exact .inl (checkSum_bookkeeps r s)
  | latches r => exact .inl (latch_bookkeeps r s)
  | exchanges f e t hr hx hc he h => exact .inr ⟨f, e, h⟩

/-! ### The kinds of steps -/

/-- The kinds of steps: a reset; a move of the environment, or nothing but an entry of the agenda used up; a configuration
written; a step of the framer without a primitive; a step of an exchange. -/
inductive StepKind (s : State) : State → Prop
  | resets (rest : List Event) (h : ResetTaken s) : StepKind s (resetFramer { s with agenda := rest })
  | moves (rest : List Event) (t : State) (hr : ¬ResetTaken s) (h : EnvOnly { s with agenda := rest } t) : StepKind s t
  | configures (c : Configuration) (rest : List Event) (hr : ¬ResetTaken s) (hp : s.phase = .idle)
      (hb : s.bootDone = false) : StepKind s { s with cfg := c, agenda := rest }
  | bookkeeps (t : State) (hr : ¬ResetTaken s) (h : Bookkeeps s t) : StepKind s t
  | exchanges (f : CmdFrame) (e : Bool) (rest : List Event) (t : State) (hr : ¬ResetTaken s)
      (h : ExchangeTo f e { s with agenda := rest } t) : StepKind s t

theorem envOnly_refl (s : State) : EnvOnly s s := ⟨rfl, rfl, List.prefix_refl _, le_refl _, id⟩

theorem taken_not_reset {s : State} {m : Move} {rest : List Event} (h : Taken s m rest) (hm : m ≠ .reset) :
    ¬ResetTaken s := fun hr => hm ((resetTaken_iff h).1 hr)

theorem step_kind {s t : State} (h : step s = .next t) : StepKind s t := by
  cases step_next h with
  | env m rest hm => exact .moves rest _ (taken_not_reset hm nofun) (envMove_only m _)
  | owed m s1 ho =>
    obtain ⟨rest, rfl⟩ := ownStep_same ho
    exact .moves rest _ (own_not_reset ho) (envMove_only m _)
  | reset rest hm => exact .resets rest ⟨rest, hm⟩
  | config c rest hm hp hb => exact .configures c rest (taken_not_reset hm nofun) hp hb
  | dropped code range rest hm => exact .moves rest _ (taken_not_reset hm nofun) (envOnly_refl _)
  | requested code range rest i t hm hp hd hx =>
    have hk : Bookkeeps { s with agenda := rest } t := requestTo_bookkeeps hp hx
    exact .bookkeeps t (taken_not_reset hm nofun) hk.of_same
  | rests s1 ho =>
    obtain ⟨rest, rfl⟩ := ownStep_same ho
    exact .moves rest _ (own_not_reset ho) (envOnly_refl _)
  | goes s1 t ho hm hp hx =>
    obtain ⟨rest, rfl⟩ := ownStep_same ho
    rcases resumeTo_bookkeeps_or_exchange hx with hk | ⟨f, e, hk⟩
    · exact .bookkeeps t (own_not_reset ho) hk.of_same
    · exact .exchanges f e rest t (own_not_reset ho) hk

/-! ### O37, O52 -/

/-- Settles O37, by the kinds of steps: only the environment moves time and WIRE, only a push of an exchange extends what is
sent, and only the host's write, before BOOT and outside an operation, changes the configuration. -/
theorem stepKeepsConfigurationAndLine : Obligations.StepKeepsConfigurationAndLine := by
  intro s t h
  cases step_kind h with
  | resets rest hr => exact ⟨rfl, List.prefix_refl _, List.prefix_refl _, fun hn => absurd hr hn⟩
  | moves rest _ hr h =>
    obtain ⟨-, -, -, -, -, -, -, -, -, hb, hc, hp, -⟩ := h.regs
    exact ⟨hp, h.sent, h.line ▸ List.prefix_refl _, fun _ => ⟨h.clock, fun b => hb.trans b, fun _ => hc⟩⟩
  | configures c rest hr hp hb =>
    exact ⟨rfl, List.prefix_refl _, List.prefix_refl _, fun _ => ⟨le_refl _, id, by simp [hp, hb]⟩⟩
  | bookkeeps _ hr h =>
    rw [h.params, h.wire, h.txPending, h.nowMs, h.cfg]
    exact ⟨rfl, List.prefix_refl _, List.prefix_refl _, fun _ => ⟨le_refl _, h.boot, fun _ => rfl⟩⟩
  | exchanges f e rest _ hr h =>
    obtain ⟨as, ho⟩ := h.only
    obtain ⟨-, -, -, -, hb, hc, hp, hn, hw, -⟩ := ho.regs
    refine ⟨hp, hw ▸ List.prefix_refl _, ?_, fun _ => ⟨hn.ge, fun b => hb.trans b, fun _ => hc⟩⟩
    rw [hw, ho.line, ← List.append_assoc]
    exact List.prefix_append _ _

/-- Settles O52: a primitive belongs to a step of an exchange, which performs at most one (`ExchangeTo.only`). -/
theorem onePrimitivePerStep : Obligations.OnePrimitivePerStep := by
  intro s t h
  cases step_kind h with
  | resets rest hr => exact .inl ⟨hr, rfl⟩
  | moves rest _ hr h => exact .inr ⟨hr, .inl (by rw [h.rest])⟩
  | configures c rest hr => exact .inr ⟨hr, .inl rfl⟩
  | bookkeeps _ hr h => exact .inr ⟨hr, .inl h.acts⟩
  | exchanges f e rest _ hr h =>
    obtain ⟨as, ho⟩ := h.only
    rcases ho.one with rfl | ⟨a, rfl⟩
    · exact .inr ⟨hr, .inl (ho.acts.trans (List.append_nil _))⟩
    · exact .inr ⟨hr, .inr ⟨a, ho.acts⟩⟩

/-! ### `op_done` (O57) -/

theorem opDone_of_moved {s : State} {o : Host.Outcome State Fault Refusal} (t : State) (h : fetch s = .moved o) :
    opDone s t = false := by simp [opDone, h]

theorem opDone_of_run {s s1 : State} {i : Instr} (t : State) (h : fetch s = .run i s1) :
    opDone s t = true ↔ t.phase = .idle ∧ (s.phase ≠ .idle ∨ takes i s1 = true) := by simp [opDone, h]

theorem opDone_of_internal {s : State} {o : Host.Outcome State Fault Refusal} (t : State) (h : fetch s = .internal o) :
    opDone s t = true ↔ t.phase = .idle ∧ s.phase ≠ .idle := by simp [opDone, h]

theorem ownNext_owed {s : State} {m : EnvMove} (h : owedMove s = some m) : ownNext s = .moved (.next (envMove m s)) := by
  simp [ownNext, h]

theorem ownNext_idle {s : State} (hp : s.phase = .idle) : ownNext s = .internal (.next s) := by
  simp [ownNext, owedMove, hp]

theorem ownNext_busy {s : State} (hm : owedMove s = none) (hp : s.phase ≠ .idle) :
    (∃ i, ownNext s = .run i s) ∨ ∃ o, ownNext s = .internal o := by
  rcases hi : frameInstr s with _ | i <;> simp [ownNext, hm, hp, hi]

/-- Only a request taken by an idle machine runs an instruction; every other move is no step of the framer. -/
theorem fetch_moved {s : State} {m : Move} {rest : List Event} (h : Taken s m rest)
    (hm : ∀ code range i, m = .request code range → s.phase = .idle → decodeRequest code range ≠ .ok i) :
    ∃ o, fetch s = .moved o := by
  rw [fetch_taken h]
  unfold moveNext
  cases m with
  | env m => exact ⟨_, rfl⟩
  | reset => exact ⟨_, rfl⟩
  | config c => dsimp only; split <;> exact ⟨_, rfl⟩
  | request code range =>
    dsimp only
    split
    · next hp =>
      split
      · next hd => exact absurd hd (hm _ _ _ rfl hp)
      · exact ⟨_, rfl⟩
    · exact ⟨_, rfl⟩

/-- Which requests are taken (R140, R142). -/
theorem takes_iff {code : BitVec 4} {range : BitVec 2} {i : Instr} {s : State} (hp : s.phase = .idle)
    (hd : decodeRequest code range = .ok i) :
    takes i s = true ↔ if i = .boot then s.bootDone = false else s.bootDone = true := by
  unfold decodeRequest at hd
  split at hd
  case h_7 => split at hd <;> cases hd <;> simp [takes, ready, hp]
  all_goals cases hd
  all_goals simp [takes, ready, bootable, hp]

/-- An operation in progress is done exactly when its step returns to IDLE. -/
theorem opDone_busy {s t : State} (h : step s = .next t) (hr : ¬ResetTaken s) (hp : s.phase ≠ .idle) :
    opDone s t = true ↔ t.phase = .idle := by
  have moved {m : Move} {rest : List Event} (hm : Taken s m rest) (hq : t.phase = s.phase) :
      opDone s t = true ↔ t.phase = .idle := by
    obtain ⟨o, ho⟩ := fetch_moved hm fun _ _ _ _ k => absurd k hp
    simp [opDone_of_moved t ho, hq, hp]
  cases step_next h with
  | env m rest hm => exact moved hm (envMove_only m _).regs.1
  | owed m s1 ho hm =>
    have hq := (envMove_only m s1).regs.1
    obtain ⟨rest, rfl⟩ := ownStep_same ho
    simp [opDone_of_moved _ ((fetch_own ho).trans (ownNext_owed hm)), hq, hp]
  | reset rest hm => exact absurd ⟨rest, hm⟩ hr
  | config c rest hm hi => exact absurd hi hp
  | dropped code range rest hm => exact moved hm rfl
  | requested code range rest i t hm hi => exact absurd hi hp
  | rests s1 ho hi => exact absurd hi hp
  | goes s1 t ho hm hi =>
    rcases ownNext_busy hm hi with ⟨i, hn⟩ | ⟨o, hn⟩
    · simp [opDone_of_run t ((fetch_own ho).trans hn), hp]
    · simp [opDone_of_internal t ((fetch_own ho).trans hn), hp]

/-- An idle machine's operation is done exactly when its request is taken and its only step returns to IDLE. -/
theorem opDone_idle {s : State} (t : State) (hp : s.phase = .idle) :
    opDone s t = true ↔ t.phase = .idle ∧ ∃ code range rest i,
      Taken s (.request code range) rest ∧ decodeRequest code range = .ok i ∧
        (if i = .boot then s.bootDone = false else s.bootDone = true) := by
  by_cases hx : ∃ code range rest i, Taken s (.request code range) rest ∧ decodeRequest code range = .ok i
  · obtain ⟨code, range, rest, i, hm, hd⟩ := hx
    have hf : fetch s = .run i { s with agenda := rest } := by rw [fetch_taken hm]; simp [moveNext, hp, hd]
    rw [opDone_of_run t hf, takes_iff (s := { s with agenda := rest }) hp hd]
    refine and_congr_right fun _ => ⟨fun h => ⟨code, range, rest, i, hm, hd, h.resolve_left (absurd hp)⟩, ?_⟩
    rintro ⟨code', range', rest', i', hm', hd', h⟩
    cases (taken_unique hm hm').1
    cases hd.symm.trans hd'
    exact .inr h
  · have hn : opDone s t = false := by
      rcases own_or_taken s with ⟨s1, ho⟩ | ⟨m, rest, hm⟩
      · obtain ⟨rest, rfl⟩ := ownStep_same ho
        simpa [hp] using opDone_of_internal t ((fetch_own ho).trans (ownNext_idle hp))
      · obtain ⟨o, ho⟩ := fetch_moved hm fun code range i hk _ hd => hx ⟨code, range, rest, i, hk ▸ hm, hd⟩
        exact opDone_of_moved t ho
    simp only [hn, Bool.false_eq_true, false_iff]
    rintro ⟨-, code, range, rest, i, hm, hd, -⟩
    exact hx ⟨code, range, rest, i, hm, hd⟩

/-! ### `tx_flush`, `rx_read9_start` and the publish strobes (O57) -/

/-- FLUSH is entered from TX by the step that pushes the checksum. -/
theorem exchangeTo_enters_flush {f : CmdFrame} {e : Bool} {s t : State} (h : ExchangeTo f e s t) :
    (s.phase = .tx ∧ t.phase = .flush) ↔ (t.phase = .flush ∧ ∃ b, t.acts = s.acts ++ [.push b]) := by
  cases h <;> simp [*]

/-- RXWAIT is entered from FLUSH by the step in which the flush returns. -/
theorem exchangeTo_enters_rxWait {f : CmdFrame} {e : Bool} {s t : State} (h : ExchangeTo f e s t) :
    (s.phase = .flush ∧ t.phase = .rxWait) ↔ (t.phase = .rxWait ∧ t.acts = s.acts ++ [.flush]) := by
  cases h <;> simp [*]

/-- The steps that enter FLUSH from TX and RXWAIT from FLUSH: those of an exchange alone, since the other kinds of steps neither
add a primitive nor enter one of these phases. -/
theorem step_enters_iff {s t : State} (h : step s = .next t) :
    ((s.phase = .tx ∧ t.phase = .flush) ↔ (t.phase = .flush ∧ ∃ b, t.acts = s.acts ++ [.push b])) ∧
    ((s.phase = .flush ∧ t.phase = .rxWait) ↔ (t.phase = .rxWait ∧ t.acts = s.acts ++ [.flush])) := by
  cases step_kind h with
  | resets => simp
  | moves rest _ hr h =>
    have hp : t.phase = s.phase := by rw [h.rest]
    have ha : t.acts = s.acts := by rw [h.rest]
    simp +contextual [hp, ha]
  | configures c rest hr hp => simp [hp]
  | bookkeeps _ hr h =>
    have h1 : t.phase ≠ .flush := fun hp => by simpa [hp, exchanging] using h.phase
    have h2 : t.phase ≠ .rxWait := fun hp => by simpa [hp, exchanging] using h.phase
    simp [h1, h2]
  | exchanges f e rest _ hr h =>
    have hf := exchangeTo_enters_flush h
    have hw := exchangeTo_enters_rxWait h
    exact ⟨hf, hw⟩

/-- The events a step publishes, and the outputs that then hold their values. -/
theorem step_publishes {s t : State} (h : step s = .next t) (hr : ¬ResetTaken s) : Publishes s.pubs t := by
  cases step_kind h with
  | resets rest k => exact absurd k hr
  | moves rest _ _ h => exact publishes_nothing (by rw [h.rest])
  | configures => exact publishes_nothing rfl
  | bookkeeps _ _ h => exact h.pubs
  | exchanges f e rest _ _ h =>
    obtain ⟨as, ho⟩ := h.only
    exact publishes_nothing (by rw [ho.rest])

/-! ### O57 -/

theorem strobes_of_reset {s t : State} (h : step s = .next t) (hr : ResetTaken s) :
    strobes s t = ⟨false, [], false, none, false, none, none⟩ := by
  obtain ⟨rest, hm⟩ := hr
  rw [step_taken hm] at h
  cases h
  obtain ⟨o, ho⟩ := fetch_moved hm nofun
  simp [strobes, opDone_of_moved _ ho, poppedBytes, pushedByte, publishedCo2, publishedTemp]

/-- The byte strobes are those of the primitives the step adds to the record. -/
theorem strobes_of_acts {s t : State} {as : List Act} (h : t.acts = s.acts ++ as) :
    (strobes s t).rxPop = poppedBytes as ∧ (strobes s t).txData = pushedByte as := by
  simp [strobes, h]

/-- Settles O57: each strobe from the kind of the step that gives it. -/
theorem portStrobes : Obligations.PortStrobes := by
  intro s t h
  have hflush : (strobes s t).txFlush = true ↔ s.phase = .tx ∧ t.phase = .flush := by simp [strobes]
  have hread : (strobes s t).rxRead9Start = true ↔ s.phase = .flush ∧ t.phase = .rxWait := by simp [strobes]
  refine ⟨by simp [outPorts], strobes_of_reset h, opDone_busy h, opDone_idle t, ?_, ?_, ?_, ?_, ?_, ?_,
    hflush.trans (step_enters_iff h).1, hread.trans (step_enters_iff h).2, ?_⟩
  · exact fun b ha => strobes_of_acts ha
  · exact fun b ha => (strobes_of_acts ha).symm
  · exact fun r ha => strobes_of_acts ha
  · exact fun ha => strobes_of_acts ha
  · exact fun bs ha => strobes_of_acts ha
  · exact fun ha => strobes_of_acts (ha.trans (List.append_nil _).symm)
  · intro hr
    obtain ⟨ps, hps, hpub⟩ := step_publishes h hr
    exact ⟨ps, hps, by simpa [strobes, hps] using hpub⟩

end Sys2Proof.Proofs

/-!
The statements of the family 10_state. The statements about every step under the invariant of the sequencer (O45, O47 to O51)
share what the invariant says of a phase, and `OutputsTo`, which says once what a step may do to the flag and the outputs. The
frames of the steps that take a request (O24, O30, O32) share `requestTo_only`.
-/

namespace Sys2Proof.Proofs

open Sys2Proof Sys2Proof.Machine

/-! ### What the invariant of the sequencer says of a phase -/

theorem phaseShape_idle {s : State} (hp : s.phase = .idle) : PhaseShape s ↔ NoTransients s := by simp [PhaseShape, hp]

theorem sequencerInv_passed {s : State} (hi : SequencerInv s) :
    s.phase ≠ .gate ∧ s.phase ≠ .chkSum ∧ s.phase ≠ .latch := by
  have hs := hi.shape
  rcases hp : s.phase <;> simp_all [PhaseShape]

theorem sequencerInv_inExchange {s : State} (hi : SequencerInv s) (hp : s.phase ≠ .idle) : InExchange s := by
  have hs := hi.shape
  unfold PhaseShape at hs
  split at hs
  case h_1 hq => exact absurd hq hp
  case h_7 | h_8 | h_9 => exact hs.elim
  all_goals exact hs.1

/-- An operation that expects a response is a TICK. -/
theorem sequencerInv_tick {s : State} (hi : SequencerInv s) (hp : s.phase ≠ .idle) (he : s.expect = some true) :
    s.op = some .tick := by
  obtain ⟨i, f, e, -, -, he', -, ht⟩ := sequencerInv_inExchange hi hp
  exact ht.1 (Option.some.inj (he'.symm.trans he))

/-- In TX a frame is in CMD, and BCNT and CSUM count and sum its bytes that are out. -/
theorem sequencerInv_tx {s : State} (hi : SequencerInv s) (hp : s.phase = .tx) :
    s.ret = none ∧ ∃ f i, s.cmd = some f ∧ s.bcnt = some i ∧ s.csum = some (partialSum f i.toNat) := by
  have hs := hi.shape
  simp only [PhaseShape, hp] at hs
  obtain ⟨-, -, hr, f, i, hc, hb, -, hsum⟩ := hs
  exact ⟨hr, f, i, hc, hb, hsum⟩

/-- In CHK_PRE the operation is a TICK with a response in RSP. -/
theorem sequencerInv_chkPre {s : State} (hi : SequencerInv s) (hp : s.phase = .chkPre) :
    s.op = some .tick ∧ ∃ r, s.rsp = some r := by
  have hs := hi.shape
  simp only [PhaseShape, hp] at hs
  obtain ⟨-, -, -, he, -, hr⟩ := hs
  exact ⟨sequencerInv_tick hi (by simp [hp]) he, Option.ne_none_iff_exists'.1 hr⟩

/-- What the registers hold when SendCommand has returned. -/
theorem sequencerInv_returned {s : State} {x : SendResult} (hi : SequencerInv s) (hr : s.ret = some x) :
    s.csum = none ∧ s.bcnt = none ∧ (s.op ≠ some .tick → s.rsp = none) ∧
      (s.op = some .tick → s.expect = some true ∧ (x = .ok → s.rsp ≠ none)) := by
  have hs := hi.shape
  rcases hp : s.phase <;> simp only [PhaseShape, hp, NoTransients, hr] at hs
  case flush =>
    obtain ⟨⟨i, f, e, -, -, he, -, ht⟩, h1, h2, h3, h4⟩ := hs
    have hf : x = .ok ∧ e = false := by simpa [he] using h4
    simp_all
  case rxWait =>
    obtain ⟨-, h1, h2, h3, h4⟩ := hs
    have ho := sequencerInv_tick hi (by simp [hp]) h3
    rcases x <;> simp_all
  all_goals simp at hs

/-! ### The flag and the outputs (O50, O51) -/

theorem sameOutputs_refl (s : State) : SameOutputs s s := ⟨rfl, rfl, rfl, rfl, rfl, rfl, rfl, rfl⟩

theorem envOnly_outputs {s t : State} (h : EnvOnly s t) : SameOutputs s t := by
  rw [h.rest]; exact sameOutputs_refl s

theorem ready_iff {s : State} : ready s = true ↔ s.phase = .idle ∧ s.bootDone = true := by simp [ready]

theorem bootable_iff {s : State} : bootable s = true ↔ s.phase = .idle ∧ s.bootDone = false := by simp [bootable]

/-- A request writes the flag and the outputs only as a TICK in its window. -/
theorem requestTo_outputs {i : Instr} {s t : State} (h : RequestTo i s t) :
    SameOutputs s t ∨ (i = .tick ∧ ready s = true ∧ t = warn .warmup s) := by
  cases h with
  | warms hi hr => exact .inr ⟨hi, hr, rfl⟩
  | _ => exact .inl (sameOutputs_refl s)

/-- Under the invariant the framer's own step writes the flag and the outputs only in a TICK, whose read failed or whose
response is validated. -/
theorem resumeTo_outputs {s t : State} (hi : SequencerInv s) (h : ResumeTo s t) :
    SameOutputs s t ∨ (s.op = some .tick ∧ (t = warn .transport s ∨ ∃ r, s.rsp = some r ∧ t = checkPreamble r s)) := by
  obtain ⟨hgate, hsum, hlatch⟩ := sequencerInv_passed hi
  cases h with
  | tickFails hr ho => exact .inr ⟨ho, .inl rfl⟩
  | validates r hr hp hs =>
    obtain ⟨ho, -⟩ := sequencerInv_chkPre hi hp
    exact .inr ⟨ho, .inr ⟨r, hs, rfl⟩⟩
  | gate _ hp => exact absurd hp hgate
  | sums _ hp => exact absurd hp hsum
  | latches _ hp => exact absurd hp hlatch
  | exchanges f e t hr hx hc he h =>
    obtain ⟨as, ho⟩ := h.only
    exact .inl (by rw [ho.rest]; exact sameOutputs_refl s)
  | _ => exact .inl (sameOutputs_refl s)

/-- Everything a step may do to the flag and the outputs under the invariant: a reset; nothing; a TICK taken in its window, or
whose read failed, warns; a TICK's response is validated. -/
inductive OutputsTo (s : State) : State → Prop
  | resets (rest : List Event) (h : ResetTaken s) : OutputsTo s (resetFramer { s with agenda := rest })
  | keeps (t : State) (h : SameOutputs s t) : OutputsTo s t
  | warms (range : BitVec 2) (rest : List Event) (h : Taken s (.request 1 range) rest) (hr : ready s = true) :
      OutputsTo s (warn .warmup { s with agenda := rest })
  | fails (rest : List Event) (ho : s.op = some .tick) : OutputsTo s (warn .transport { s with agenda := rest })
  | validates (r : RspFrame) (rest : List Event) (ho : s.op = some .tick) (hs : s.rsp = some r) :
      OutputsTo s (checkPreamble r { s with agenda := rest })

/-- TICK is the operation 1 (R80). -/
theorem decodeRequest_tick {code : BitVec 4} {range : BitVec 2} (h : decodeRequest code range = .ok .tick) : code = 1 := by
  revert h
  revert code range
  decide

/-- The invariant speaks of no move still to come. -/
theorem sequencerInv_agenda {s : State} (hi : SequencerInv s) (rest : List Event) : SequencerInv { s with agenda := rest } :=
  ⟨hi.shape, hi.cause, hi.booted, hi.range⟩

theorem step_outputs {s t : State} (hi : SequencerInv s) (h : step s = .next t) : OutputsTo s t := by
  cases step_next h with
  | env m rest =>
    have hk := envOnly_outputs (envMove_only m { s with agenda := rest })
    exact .keeps _ hk
  | owed m s1 ho =>
    obtain ⟨rest, rfl⟩ := ownStep_same ho
    have hk := envOnly_outputs (envMove_only m { s with agenda := rest })
    exact .keeps _ hk
  | reset rest hm => exact .resets rest ⟨rest, hm⟩
  | config | dropped => exact .keeps _ (sameOutputs_refl s)
  | requested code range rest i t hm hp hd hx =>
    rcases requestTo_outputs hx with hk | ⟨rfl, hr, rfl⟩
    · exact .keeps _ hk
    · cases decodeRequest_tick hd
      exact .warms range rest hm hr
  | rests s1 ho =>
    obtain ⟨rest, rfl⟩ := ownStep_same ho
    exact .keeps _ (sameOutputs_refl s)
  | goes s1 t ho hm hp hx =>
    obtain ⟨rest, rfl⟩ := ownStep_same ho
    rcases resumeTo_outputs (sequencerInv_agenda hi rest) hx with hk | ⟨ht, rfl | ⟨r, hs, rfl⟩⟩
    · exact .keeps _ hk
    · exact .fails rest ht
    · exact .validates r rest ht hs

/-- Settles O50: every other way to write the flag and the outputs is a part of a TICK. -/
theorem onlyTickWritesOutputs : Obligations.OnlyTickWritesOutputs := by
  intro s t hi h
  cases step_outputs hi h with
  | resets rest hr => exact .inr (.inr (.inl hr))
  | keeps _ hk => exact .inr (.inr (.inr hk))
  | warms range rest hm hr =>
    obtain ⟨hp, hb⟩ := ready_iff.1 hr
    exact .inr (.inl ⟨hp, hb, range, rest, hm⟩)
  | fails rest ho | validates r rest ho => exact .inl ho

/-- Settles O51: the flag is cleared by LATCH alone, and the response latched is the one in RSP, which was read. -/
theorem onlySuccessClearsWarning : Obligations.OnlySuccessClearsWarning := by
  intro s t hi hp h hw hc
  obtain ⟨-, -, hread⟩ := hp
  cases step_outputs hi h with
  | resets rest hr => exact .inl hr
  | keeps _ hk => exact absurd (hk.1.symm.trans hc) (by simp [hw])
  | warms | fails => cases hc
  | validates r rest ho hs =>
    refine .inr ⟨r, ?_⟩
    rcases checkPreamble_cases r { s with agenda := rest } with ⟨-, ht⟩ | ⟨-, -, ht⟩ | ⟨hpre, hsum, ht⟩
    · rw [ht] at hc; cases hc
    · rw [ht] at hc; cases hc
    · rw [ht, latch_eq]
      exact ⟨hread r hs, by simp [accepted, hpre, hsum], rfl, rfl, rfl⟩

/-! ### O45 -/

/-- WARNING and WCAUSE agree after every step (R24, R25). -/
theorem step_keeps_cause {s t : State} (hi : SequencerInv s) (h : step s = .next t) : t.warning = true ↔ t.wcause ≠ .none := by
  cases step_outputs hi h with
  | resets | warms | fails => simp [warn]
  | keeps _ hk =>
    obtain ⟨hw, hc, -⟩ := hk
    rw [hw, hc]; exact hi.cause
  | validates r rest =>
    rcases checkPreamble_cases r { s with agenda := rest } with ⟨-, ht⟩ | ⟨-, -, ht⟩ | ⟨-, -, ht⟩ <;> rw [ht]
    · simp [warn]
    · simp [warn]
    · simp [latch_eq]

/-- What the invariant says but for the flag. -/
structure Sequenced (s : State) : Prop where
  shape : PhaseShape s
  booted : s.op ≠ none → (s.op = some .boot ↔ s.bootDone = false)
  range : s.rangeLeft = true → s.op = some .boot

theorem sequenced_idle {s : State} (hp : s.phase = .idle) (hn : NoTransients s) : Sequenced s := by
  refine ⟨(phaseShape_idle hp).2 hn, ?_, ?_⟩
  all_goals
    obtain ⟨ho, -, -, -, -, -, -, hl⟩ := hn
    simp [ho, hl]

/-- The beginning of an exchange of a row of the table, in an operation that has no response in RSP. -/
theorem sequenced_startExchange {s : State} {i : Instr} {f : CmdFrame} {e : Bool} (hi : wireRow s.params i = some (f, e))
    (ho : s.op ≠ none) (he : e = true ↔ s.op = some .tick) (hr : s.rsp = none)
    (hb : s.op = some .boot ↔ s.bootDone = false) (hl : s.rangeLeft = true → s.op = some .boot) :
    Sequenced (startExchange f e s) :=
  ⟨⟨⟨i, f, e, hi, rfl, rfl, ho, he⟩, hr, rfl, rfl, rfl⟩, fun _ => hb, hl⟩

theorem requestTo_sequenced {i : Instr} {s t : State} (hi : SequencerInv s) (h : RequestTo i s t) : Sequenced t := by
  cases h with
  | nothing => exact ⟨hi.shape, hi.booted, hi.range⟩
  | warms | bootEnds => exact sequenced_idle rfl ⟨rfl, rfl, rfl, rfl, rfl, rfl, rfl, rfl⟩
  | ticks _ hr =>
    obtain ⟨-, hd⟩ := ready_iff.1 hr
    exact sequenced_startExchange (i := .wireGetReading) rfl (by simp) (by simp) rfl (by simp [hd]) (by simp)
  | commands o j f _ _ hr hj h1 h2 =>
    obtain ⟨-, hd⟩ := ready_iff.1 hr
    exact sequenced_startExchange (s := beginOp o s) hj (by simp) (by simp [h1]) rfl (by simp [h2, hd]) (by simp)
  | boots l j f _ hr hj =>
    obtain ⟨-, hd⟩ := bootable_iff.1 hr
    exact sequenced_startExchange (s := { beginOp .boot s with rangeLeft := l }) hj (by simp) (by simp) rfl (by simp [hd])
      (by simp)

theorem cmdBytes_index_lt {f : CmdFrame} {n : Nat} {b : Byte} (h : (cmdBytes f)[n]? = some b) : n < 8 := by
  by_contra hge
  simp [cmdBytes_getElem?.2 (Nat.le_of_not_lt hge)] at h

/-- A step of the exchange in progress leaves the registers as its new phase says. -/
theorem exchangeTo_shape {f : CmdFrame} {e : Bool} {s t : State} (hi : SequencerInv s) (hr : s.ret = none)
    (hc : s.cmd = some f) (he : s.expect = some e) (h : ExchangeTo f e s t) : PhaseShape t := by
  have hs := hi.shape
  cases h with
  | pops b q hp =>
    simp only [PhaseShape, hp, popByte_phase] at hs ⊢
    exact hs
  | drained hp =>
    simp only [PhaseShape, hp] at hs ⊢
    obtain ⟨hx, h1, -, -, -⟩ := hs
    exact ⟨hx, h1, hr, f, 0, hc, rfl, by decide, rfl⟩
  | pushes i c b hp hn hsum hb =>
    simp only [PhaseShape, hp, pushByte_phase] at hs ⊢
    obtain ⟨hx, h1, -, g, j, hg, hj, -, hps⟩ := hs
    cases hg.symm.trans hc
    cases hj.symm.trans hn
    cases hps.symm.trans hsum
    have hlt := cmdBytes_index_lt hb
    have hz : i = 0 ↔ i.toNat = 0 := ⟨fun h => h ▸ rfl, fun h => BitVec.eq_of_toNat_eq h⟩
    refine ⟨hx, h1, hr, f, i + 1, hc, rfl, by rw [bcnt_succ hlt]; exact hlt, ?_⟩
    simp only [hz, bcnt_succ hlt, partialSum_succ hb]
  | pushesSum i c hp =>
    simp only [PhaseShape, hp] at hs ⊢
    exact ⟨hs.1, hs.2.1, trivial, trivial, .inl hr⟩
  | flushWaits | readWaits => exact hs
  | flushed hp ht h0 =>
    simp only [PhaseShape, hp, flushReturns_phase] at hs ⊢
    obtain ⟨hx, h1, h2, h3, -⟩ := hs
    exact ⟨hx, h1, h2, h3, .inr ⟨trivial, h0 ▸ he⟩⟩
  | reads hp ht h1 =>
    simp only [PhaseShape, hp] at hs ⊢
    obtain ⟨hx, h2, h3, h4, -⟩ := hs
    exact ⟨hx, h3, h4, h1 ▸ he, .inl ⟨hr, h2⟩⟩
  | answered r q hp =>
    simp only [PhaseShape, hp, readTakes_phase] at hs ⊢
    obtain ⟨hx, h1, h2, h3, -⟩ := hs
    exact ⟨hx, h1, h2, h3, .inr (.inl ⟨rfl, nofun⟩)⟩
  | failed hp =>
    simp only [PhaseShape, hp, readFails_phase] at hs ⊢
    obtain ⟨hx, h1, h2, h3, -⟩ := hs
    exact ⟨hx, h1, h2, h3, .inr (.inr ⟨rfl, rfl⟩)⟩

theorem resumeTo_sequenced {s t : State} (hi : SequencerInv s) (hp : s.phase ≠ .idle) (h : ResumeTo s t) : Sequenced t := by
  obtain ⟨hgate, hsum, hlatch⟩ := sequencerInv_passed hi
  cases h with
  | tickFails | bootEnds | commandEnds => exact sequenced_idle rfl ⟨rfl, rfl, rfl, rfl, rfl, rfl, rfl, rfl⟩
  | tickReads hr ho =>
    obtain ⟨hc, hb, -, ht⟩ := sequencerInv_returned hi hr
    obtain ⟨he, hs⟩ := ht ho
    have hx := sequencerInv_inExchange hi hp
    exact ⟨⟨hx, hc, hb, he, rfl, hs rfl⟩, hi.booted, hi.range⟩
  | bootSends f x hr ho hl hf =>
    obtain ⟨j, hj⟩ := rangeFrame_row hf
    obtain ⟨-, -, hs, -⟩ := sequencerInv_returned hi hr
    exact sequenced_startExchange (s := { s with rangeLeft := false }) hj (by simp [ho]) (by simp [ho]) (hs (by simp [ho]))
      (hi.booted (by simp [ho])) nofun
  | validates r =>
    rw [checkPreamble_only]
    exact sequenced_idle rfl ⟨rfl, rfl, rfl, rfl, rfl, rfl, rfl, rfl⟩
  | gate _ hq => exact absurd hq hgate
  | sums _ hq => exact absurd hq hsum
  | latches _ hq => exact absurd hq hlatch
  | exchanges f e t hr hx hc he h =>
    obtain ⟨as, hk⟩ := h.only
    obtain ⟨ho, -, -, hl, hb, -⟩ := hk.regs
    exact ⟨exchangeTo_shape hi hr hc he h, ho ▸ hb ▸ hi.booted, ho ▸ hl ▸ hi.range⟩

theorem envOnly_sequenced {s t : State} (hi : SequencerInv s) (h : EnvOnly s t) : Sequenced t := by
  rw [h.rest]; exact ⟨hi.shape, hi.booted, hi.range⟩

theorem step_sequenced {s t : State} (hi : SequencerInv s) (h : step s = .next t) : Sequenced t := by
  cases step_next h with
  | env m rest => exact envOnly_sequenced (sequencerInv_agenda hi rest) (envMove_only m _)
  | owed m s1 ho =>
    obtain ⟨rest, rfl⟩ := ownStep_same ho
    exact envOnly_sequenced (sequencerInv_agenda hi rest) (envMove_only m _)
  | reset => exact sequenced_idle rfl ⟨rfl, rfl, rfl, rfl, rfl, rfl, rfl, rfl⟩
  | config | dropped => exact ⟨hi.shape, hi.booted, hi.range⟩
  | requested code range rest i t hm hp hd hx => exact requestTo_sequenced (sequencerInv_agenda hi rest) hx
  | rests s1 ho =>
    obtain ⟨rest, rfl⟩ := ownStep_same ho
    exact ⟨hi.shape, hi.booted, hi.range⟩
  | goes s1 t ho hm hp hx =>
    obtain ⟨rest, rfl⟩ := ownStep_same ho
    exact resumeTo_sequenced (sequencerInv_agenda hi rest) hp hx

/-- Settles O45: the flag by what a step may do to the outputs, the rest by the cases of a step. -/
theorem stepKeepsSequencerInv : Obligations.StepKeepsSequencerInv := by
  intro s t hi h
  obtain ⟨hs, hb, hl⟩ := step_sequenced hi h
  exact ⟨hs, step_keeps_cause hi h, hb, hl⟩

/-! ### O49 -/

/-- A step that is no reset forgets no primitive. -/
theorem step_acts_subset {s t : State} (h : step s = .next t) (hr : ¬ResetTaken s) : s.acts ⊆ t.acts := by
  rcases onePrimitivePerStep s t h with ⟨k, -⟩ | ⟨-, ha | ⟨a, ha⟩⟩
  · exact absurd k hr
  · exact ha ▸ List.Subset.refl _
  · exact ha ▸ List.subset_append_left _ _

/-- RSP is written by an answered read alone (R45, R97). -/
theorem resumeTo_rsp {s t : State} (hi : SequencerInv s) (h : ResumeTo s t) :
    t.rsp = none ∨ t.rsp = s.rsp ∨ ∃ r, t.rsp = some r ∧ .readOk r ∈ t.acts := by
  obtain ⟨hgate, hsum, hlatch⟩ := sequencerInv_passed hi
  cases h with
  | tickFails | bootEnds | commandEnds => exact .inl rfl
  | tickReads | bootSends => exact .inr (.inl rfl)
  | validates r => rw [checkPreamble_only]; exact .inl rfl
  | gate _ hq => exact absurd hq hgate
  | sums _ hq => exact absurd hq hsum
  | latches _ hq => exact absurd hq hlatch
  | exchanges f e t hr hx hc he h =>
    cases h with
    | answered r => exact .inr (.inr ⟨r, rfl, by simp⟩)
    | failed => exact .inl rfl
    | _ => exact .inr (.inl rfl)

theorem envMove_rsp (m : EnvMove) (s : State) : (envMove m s).rsp = s.rsp := by rw [(envMove_only m s).rest]

theorem step_rsp {s t : State} (hi : SequencerInv s) (h : step s = .next t) :
    t.rsp = none ∨ t.rsp = s.rsp ∨ ∃ r, t.rsp = some r ∧ .readOk r ∈ t.acts := by
  cases step_next h with
  | env m rest => exact .inr (.inl (envMove_rsp m _))
  | owed m s1 ho =>
    obtain ⟨rest, rfl⟩ := ownStep_same ho
    exact .inr (.inl (envMove_rsp m _))
  | reset => exact .inl rfl
  | config | dropped => exact .inr (.inl rfl)
  | requested code range rest i t hm hp hd hx =>
    cases hx with
    | nothing => exact .inr (.inl rfl)
    | _ => exact .inl rfl
  | rests s1 ho =>
    obtain ⟨rest, rfl⟩ := ownStep_same ho
    exact .inr (.inl rfl)
  | goes s1 t ho hm hp hx =>
    obtain ⟨rest, rfl⟩ := ownStep_same ho
    have hk := resumeTo_rsp (sequencerInv_agenda hi rest) hx
    exact hk

/-- RSP holds only what was read, after every step that is no reset. -/
theorem step_keeps_rsp_read {s t : State} (hi : SequencerInv s) (hp : PublishesTrusted s) (h : step s = .next t)
    (hr : ¬ResetTaken s) : ∀ r, t.rsp = some r → .readOk r ∈ t.acts := by
  intro r ht
  obtain ⟨-, -, hread⟩ := hp
  rcases step_rsp hi h with hn | hs | ⟨r', hs, ha⟩
  · simp [hn] at ht
  · exact step_acts_subset h hr (hread r (hs ▸ ht))
  · cases hs.symm.trans ht; exact ha

/-- A record of primitives that has grown vouches for the same publish events. -/
theorem publishesTrusted_of_pubs {s t : State} (h : PublishesTrusted s) (hp : t.pubs = s.pubs) (ha : s.acts ⊆ t.acts)
    (hr : ∀ r, t.rsp = some r → .readOk r ∈ t.acts) : PublishesTrusted t := by
  obtain ⟨hco2, htemp, -⟩ := h
  refine ⟨fun v hv => ?_, fun v hv => ?_, hr⟩
  · obtain ⟨r, hm, hk⟩ := hco2 v (hp ▸ hv)
    exact ⟨r, ha hm, hk⟩
  · obtain ⟨r, hm, hk⟩ := htemp v (hp ▸ hv)
    exact ⟨r, ha hm, hk⟩

/-- LATCH publishes the fields of the response it is given (R115, R116). -/
theorem latch_trusted {s : State} {r : RspFrame} (h : PublishesTrusted s) (hr : .readOk r ∈ s.acts) (ha : accepted r = true) :
    PublishesTrusted (latch r s) := by
  obtain ⟨hco2, htemp, -⟩ := h
  rw [latch_eq]
  refine ⟨fun v hv => ?_, fun v hv => ?_, nofun⟩
  · have hv : .co2 v ∈ s.pubs ∨ s.cfg.co2SinkEn = true ∧ v = co2Word r := by simpa using hv
    exact hv.elim (hco2 v) fun hv => ⟨r, hr, ha, hv.2⟩
  · have hv : .temp v ∈ s.pubs ∨ s.cfg.tempSinkEn = true ∧ v = tempWord r := by simpa using hv
    exact hv.elim (htemp v) fun hv => ⟨r, hr, ha, hv.2⟩

/-- Settles O49: a reset forgets every event; only LATCH adds events, and the response it is given is accepted and was read. -/
theorem stepKeepsPublishesTrusted : Obligations.StepKeepsPublishesTrusted := by
  intro s t hi hp h
  by_cases hr : ResetTaken s
  · obtain ⟨rest, hm⟩ := hr
    rw [step_taken hm] at h
    cases h
    simp [PublishesTrusted]
  have hrsp := step_keeps_rsp_read hi hp h hr
  have hacts := step_acts_subset h hr
  cases step_outputs hi h with
  | resets rest k => exact absurd k hr
  | keeps _ hk =>
    obtain ⟨-, -, -, -, -, -, -, hpubs⟩ := hk
    exact publishesTrusted_of_pubs hp hpubs hacts hrsp
  | warms | fails => exact publishesTrusted_of_pubs hp rfl hacts hrsp
  | validates r rest ho hs =>
    rcases checkPreamble_cases r { s with agenda := rest } with ⟨-, ht⟩ | ⟨-, -, ht⟩ | ⟨hpre, hsum, ht⟩
    · exact publishesTrusted_of_pubs hp (by rw [ht]; rfl) hacts hrsp
    · exact publishesTrusted_of_pubs hp (by rw [ht]; rfl) hacts hrsp
    · rw [ht]
      have ⟨_, _, hread⟩ := hp
      exact latch_trusted (s := { s with phase := .latch, agenda := rest }) hp (hread r hs) (by simp [accepted, hpre, hsum])

/-! ### O48 -/

/-- The bytes of CMD pushed so far, in phase TX. -/
def txPart (s : State) : List Byte :=
  match s.phase, s.cmd, s.bcnt with
  | .tx, some f, some i => (cmdBytes f).take i.toNat
  | _, _, _ => []

theorem txPart_tx {s : State} {f : CmdFrame} {i : BitVec 4} (hp : s.phase = .tx) (hc : s.cmd = some f) (hb : s.bcnt = some i) :
    txPart s = (cmdBytes f).take i.toNat := by simp [txPart, hp, hc, hb]

theorem txPart_not_tx {s : State} (hp : s.phase ≠ .tx) : txPart s = [] := by
  unfold txPart
  split
  · exact absurd ‹_› hp
  · rfl

theorem txPart_zero {s : State} (hb : s.bcnt = some 0) : txPart s = [] := by
  unfold txPart
  split
  · next hi => cases hb.symm.trans hi; rfl
  · rfl

theorem framesOnly_iff {s : State} : FramesOnly s ↔
    ∃ fs : List CmdFrame, (∀ f ∈ fs, f ∈ tableFrames s.params) ∧ pushes s.acts = fs.flatMap wireFrame ++ txPart s := by
  refine exists_congr fun fs => and_congr_right fun _ => ?_
  unfold txPart
  split <;> simp_all

theorem framesOnly_of_same {s t : State} (h : FramesOnly s) (hp : t.params = s.params) (ha : pushes t.acts = pushes s.acts)
    (ht : txPart t = txPart s) : FramesOnly t := by
  rw [framesOnly_iff] at h ⊢
  rwa [hp, ha, ht]

/-- A frame that a row of the table sends is a frame of the table. -/
theorem wireRow_mem_tableFrames {p : Params} {i : Instr} {f : CmdFrame} {e : Bool} (h : wireRow p i = some (f, e)) :
    f ∈ tableFrames p := by
  cases i <;> simp only [wireRow, Option.some.injEq, Prod.mk.injEq, reduceCtorEq] at h
  all_goals
    obtain ⟨rfl, -⟩ := h
    simp [tableFrames, wireTable]

/-- Outside TX a step of an exchange pushes nothing, and none of CMD is out after it. -/
theorem exchangeTo_not_tx {f : CmdFrame} {e : Bool} {s t : State} (hp : s.phase ≠ .tx) (h : ExchangeTo f e s t) :
    pushes t.acts = pushes s.acts ∧ txPart t = [] := by
  cases h with
  | pushes i c b hq | pushesSum i c hq => exact absurd hq hp
  | drained => exact ⟨rfl, txPart_zero rfl⟩
  | pops | flushed | answered | failed => exact ⟨by simp [pushes_append, pushes], txPart_not_tx hp⟩
  | reads => exact ⟨by simp [pushes_append, pushes], txPart_not_tx nofun⟩
  | flushWaits | readWaits => exact ⟨rfl, txPart_not_tx hp⟩

/-- In TX a step of an exchange pushes the next byte of CMD, or, after the eighth, the checksum, which makes the wire frame whole
(R61, R94). -/
theorem exchangeTo_tx {f : CmdFrame} {e : Bool} {s t : State} (hi : SequencerInv s) (hp : s.phase = .tx) (hc : s.cmd = some f)
    (h : ExchangeTo f e s t) :
    ∃ b, pushes t.acts = pushes s.acts ++ [b] ∧
      (txPart t = txPart s ++ [b] ∨ (txPart s ++ [b] = wireFrame f ∧ txPart t = [])) := by
  obtain ⟨-, g, j, hg, hj, hps⟩ := sequencerInv_tx hi hp
  cases hg.symm.trans hc
  cases h with
  | pushes i c b hq hn hsum hb =>
    cases hj.symm.trans hn
    refine ⟨b, by simp [pushes_append, pushes], .inl ?_⟩
    refine Eq.trans (txPart_tx (i := j + 1) hp hg rfl) ?_
    rw [txPart_tx hp hg hj, bcnt_succ (cmdBytes_index_lt hb), List.take_add_one, hb, Option.toList_some]
  | pushesSum i c hq hn hsum hb =>
    cases hj.symm.trans hn
    cases hps.symm.trans hsum
    refine ⟨checksumOfSum (partialSum f j.toNat), by simp [pushes_append, pushes], .inr ⟨?_, txPart_not_tx nofun⟩⟩
    rw [txPart_tx hp hg hj, List.take_of_length_le (by simpa [cmdBytes] using hb), checksum_partialSum hb, wireFrame]
  | pops _ _ hq | drained hq | flushWaits hq | flushed hq | reads hq | answered _ _ hq | readWaits hq | failed hq =>
    simp [hp] at hq

/-- The framer's own step in TX is a step of the exchange of CMD. -/
theorem resumeTo_tx {s t : State} (hi : SequencerInv s) (hp : s.phase = .tx) (h : ResumeTo s t) :
    ∃ f e, s.cmd = some f ∧ ExchangeTo f e s t := by
  obtain ⟨hret, -⟩ := sequencerInv_tx hi hp
  cases h with
  | exchanges f e t hr hx hc he h => exact ⟨f, e, hc, h⟩
  | tickFails hr | tickReads hr | bootSends _ _ hr | bootEnds _ hr | commandEnds _ hr => simp [hret] at hr
  | gate _ hq | validates _ _ hq | sums _ hq | latches _ hq => simp [hp] at hq

theorem exchangeTo_framesOnly {f : CmdFrame} {e : Bool} {s t : State} (hi : SequencerInv s) (hf : FramesOnly s)
    (hc : s.phase = .tx → s.cmd = some f) (h : ExchangeTo f e s t) : FramesOnly t := by
  obtain ⟨as, ho⟩ := h.only
  have hparams : t.params = s.params := by rw [ho.rest]
  by_cases hp : s.phase = .tx
  · rw [framesOnly_iff] at hf ⊢
    obtain ⟨fs, hall, hacts⟩ := hf
    obtain ⟨b, hb, ht | ⟨hw, ht⟩⟩ := exchangeTo_tx hi hp (hc hp) h
    · exact ⟨fs, hparams ▸ hall, by rw [hb, hacts, ht, List.append_assoc]⟩
    · obtain ⟨i, g, e', hrow, hg, -⟩ := sequencerInv_inExchange hi (by simp [hp])
      cases (hc hp).symm.trans hg
      refine ⟨fs ++ [f], ?_, by simp [hb, hacts, ht, hw]⟩
      simpa [hparams, or_imp, forall_and] using ⟨hall, wireRow_mem_tableFrames hrow⟩
  · obtain ⟨ha, ht⟩ := exchangeTo_not_tx hp h
    exact framesOnly_of_same hf hparams ha (ht.trans (txPart_not_tx hp).symm)

theorem bookkeeps_framesOnly {s t : State} (hf : FramesOnly s) (hp : s.phase ≠ .tx) (h : Bookkeeps s t) : FramesOnly t := by
  have ht : t.phase ≠ .tx := fun hq => by simpa [hq, exchanging] using h.phase
  exact framesOnly_of_same hf h.params (by rw [h.acts]) ((txPart_not_tx ht).trans (txPart_not_tx hp).symm)

theorem resumeTo_framesOnly {s t : State} (hi : SequencerInv s) (hf : FramesOnly s) (h : ResumeTo s t) : FramesOnly t := by
  by_cases hp : s.phase = .tx
  · obtain ⟨f, e, hc, hx⟩ := resumeTo_tx hi hp h
    exact exchangeTo_framesOnly hi hf (fun _ => hc) hx
  · rcases resumeTo_bookkeeps_or_exchange h with hk | ⟨f, e, hx⟩
    · exact bookkeeps_framesOnly hf hp hk
    · exact exchangeTo_framesOnly hi hf (absurd · hp) hx

theorem envOnly_framesOnly {s t : State} (hf : FramesOnly s) (h : EnvOnly s t) : FramesOnly t := by
  rw [h.rest]; exact hf

/-- Settles O48: only a step in TX pushes, the next byte of a wire frame of the table; the last one makes the frame whole. -/
theorem stepKeepsFramesOnly : Obligations.StepKeepsFramesOnly := by
  intro s t hi hf h
  have hf' (rest : List Event) : FramesOnly { s with agenda := rest } := hf
  cases step_next h with
  | env m rest => exact envOnly_framesOnly (hf' rest) (envMove_only m _)
  | owed m s1 ho =>
    obtain ⟨rest, rfl⟩ := ownStep_same ho
    exact envOnly_framesOnly (hf' rest) (envMove_only m _)
  | reset => exact ⟨[], by simp, rfl⟩
  | config | dropped => exact hf
  | requested code range rest i t hm hp hd hx =>
    exact bookkeeps_framesOnly (hf' rest) (by simp [hp]) (requestTo_bookkeeps hp hx)
  | rests s1 ho =>
    obtain ⟨rest, rfl⟩ := ownStep_same ho
    exact hf
  | goes s1 t ho hm hp hx =>
    obtain ⟨rest, rfl⟩ := ownStep_same ho
    exact resumeTo_framesOnly (sequencerInv_agenda hi rest) (hf' rest) hx

/-! ### O47 -/

/-- Under the invariant the framer's own step of an operation in progress finds every register its phase reads. -/
theorem resume_progress {s : State} (hi : SequencerInv s) (hp : s.phase ≠ .idle) : ∃ t, resume s = .next t := by
  rcases hr : s.ret with _ | x
  · obtain ⟨i, f, e, -, hc, he, -⟩ := sequencerInv_inExchange hi hp
    obtain ⟨hgate, hsum, hlatch⟩ := sequencerInv_passed hi
    rcases hq : s.phase
    case idle | gate | chkSum | latch => contradiction
    case tx =>
      obtain ⟨-, g, n, -, hn, hcs⟩ := sequencerInv_tx hi hq
      rw [resume_exchange (by simp [hq, exchanging]) hr hc he]
      exact ⟨_, by simp [exchangeStep, hq, hn, hcs]; rfl⟩
    case drain | flush | rxWait =>
      rw [resume_exchange (by simp [hq, exchanging]) hr hc he]
      exact ⟨_, by simp [exchangeStep, hq]; rfl⟩
    case chkPre =>
      obtain ⟨-, r, hs⟩ := sequencerInv_chkPre hi hq
      exact ⟨checkPreamble r s, by simp [resume, hr, hq, hs]⟩
  · exact ⟨returned x s, by simp [resume, hr]⟩

/-- A requested operation is no frame. -/
theorem decodeRequest_wireRow {code : BitVec 4} {range : BitVec 2} {i : Instr} (p : Params)
    (h : decodeRequest code range = .ok i) : wireRow p i = none := by
  unfold decodeRequest at h
  split at h
  case h_7 => split at h <;> cases h <;> rfl
  all_goals cases h
  all_goals rfl

/-- Only the exchange of a wire frame can meet a register without a value. -/
theorem exec_ne_fault {s : State} {i : Instr} (h : wireRow s.params i = none) (r : Fault) : exec i s ≠ .fault r := by
  cases i with
  | boot =>
    simp only [exec, execBoot]
    split
    · split <;> nofun
    · nofun
  | tick =>
    simp only [exec, execTick, tickGate]
    split_ifs <;> nofun
  | wireGetReading | wireRange5000 | wireRange2000 | wireRange10000 | wireAbcEnable | wireAbcDisable | wireCalibrateZero
  | wireRecover => cases h
  | _ => exact nofun

/-- Settles O47: a move faults in no state, and the framer's own step has what it reads. -/
theorem noAbsentRegisterIsRead : Obligations.NoAbsentRegisterIsRead := by
  intro s r hi h
  rcases own_or_taken s with ⟨s1, ho⟩ | ⟨m, rest, hm⟩
  · obtain ⟨rest, rfl⟩ := ownStep_same ho
    rw [step_own ho] at h
    split at h
    · cases h
    · split at h
      · cases h
      · next hp =>
        obtain ⟨t, ht⟩ := resume_progress (sequencerInv_agenda hi rest) hp
        cases ht.symm.trans h
  · rw [step_taken hm] at h
    cases m with
    | env | reset => cases h
    | config c => dsimp only at h; split at h <;> cases h
    | request code range =>
      dsimp only at h
      split at h
      · split at h
        · next i hd => exact exec_ne_fault (decodeRequest_wireRow _ hd) r h
        · cases h
      · cases h


/-! ### O46 -/

/-- Settles O46: after reset no operation runs, and the records are empty. -/
theorem resetMeetsInvariants : Obligations.ResetMeetsInvariants := by
  have hseq : Sequenced State.reset := sequenced_idle rfl ⟨rfl, rfl, rfl, rfl, rfl, rfl, rfl, rfl⟩
  refine ⟨⟨hseq.shape, by simp [State.reset], hseq.booted, hseq.range⟩, ⟨⟨[], [], nofun, rfl, rfl⟩, ⟨[], rfl⟩, fun _ => rfl⟩,
    ⟨[], nofun, rfl⟩, by simp [PublishesTrusted, State.reset]⟩

/-! ### The frames of the steps that take a request (O24, O30, O32) -/

/-- What the step that takes a request leaves alone: the environment, time, the records, the value outputs; and the flag but for
TICK, BOOT_DONE but for BOOT. -/
structure RequestOnly (i : Instr) (s t : State) : Prop where
  rest : t = { s with phase := t.phase, op := t.op, cmd := t.cmd, rsp := t.rsp, csum := t.csum, bcnt := t.bcnt,
                      expect := t.expect, bootDone := t.bootDone, warning := t.warning, wcause := t.wcause, ret := t.ret,
                      rangeLeft := t.rangeLeft }
  rsp : t.rsp = s.rsp ∨ t.rsp = none
  outputs : i ≠ .tick → SameOutputs s t
  booted : i ≠ .boot → t.bootDone = s.bootDone

theorem requestTo_only {i : Instr} {s t : State} (h : RequestTo i s t) : RequestOnly i s t := by
  have houtputs (hi : i ≠ .tick) : SameOutputs s t :=
    (requestTo_outputs h).resolve_right fun ⟨hk, _⟩ => hi hk
  cases h with
  | nothing => exact ⟨rfl, .inl rfl, houtputs, fun _ => rfl⟩
  | bootEnds hi => exact ⟨rfl, .inr rfl, houtputs, absurd hi⟩
  | _ => exact ⟨rfl, .inr rfl, houtputs, fun _ => rfl⟩

/-- Settles O24: the step takes a request, and is no BOOT. -/
theorem tickLeavesConfiguration : Obligations.TickLeavesConfiguration := by
  intro s t h
  have ho := requestTo_only (exec_request (code := 1) (range := 0) rfl h)
  refine ⟨ho.booted nofun, ?_⟩
  rw [ho.rest]
  simp

/-- Settles O30: the step takes a request, and is neither TICK nor BOOT. -/
theorem onDemandCommandsLeaveOutputs : Obligations.OnDemandCommandsLeaveOutputs := by
  intro s t i hi h
  have hd : ∃ code range, decodeRequest code range = .ok i := by
    simp only [List.mem_cons, List.not_mem_nil, or_false] at hi
    rcases hi with rfl | rfl | rfl | rfl | rfl | rfl | rfl | rfl
    · exact ⟨2, 0, rfl⟩
    · exact ⟨3, 0, rfl⟩
    · exact ⟨4, 0, rfl⟩
    · exact ⟨5, 0, rfl⟩
    · exact ⟨6, 0, rfl⟩
    · exact ⟨6, 1, rfl⟩
    · exact ⟨6, 2, rfl⟩
    · exact ⟨6, 3, rfl⟩
  obtain ⟨code, range, hd⟩ := hd
  have ho := requestTo_only (exec_request hd h)
  have hother : i ≠ .tick ∧ i ≠ .boot := by constructor <;> rintro rfl <;> simp at hi
  refine ⟨ho.outputs hother.1, ho.booted hother.2, ?_, ?_, ?_, ?_, ?_, ?_, ?_, ?_, ?_, ?_, ?_, ?_, ?_, ho.rsp⟩ <;> rw [ho.rest]

/-- Settles O32: the step takes a request, and is no TICK. -/
theorem bootLeavesOutputs : Obligations.BootLeavesOutputs := by
  intro s t h
  have ho := requestTo_only (exec_request (code := 0) (range := 0) rfl h)
  refine ⟨ho.outputs nofun, ?_, ?_, ?_, ?_, ?_, ?_, ?_, ?_, ?_, ?_, ?_, ?_, ?_, ho.rsp⟩ <;> rw [ho.rest]

/-! ### The response frame, the codes of the ports (O5, O16, O17) -/

/-- Settles O17: the CO2 number is below 2^16, the temperature within 16 bits signed, so the registers truncate nothing. -/
theorem extractedValues : Obligations.ExtractedValues := by
  intro r
  have hhi := r.ppmHi.isLt
  have hlo := r.ppmLo.isLt
  have htb := r.temp40.isLt
  have htemp : (tempWord r).toInt = (r.temp40.toNat : Int) - 40 := by
    rw [tempWord, BitVec.toInt_ofInt, tempValue, Int.bmod_eq_of_le (by omega) (by omega)]
  refine ⟨?_, htemp, by omega, by omega⟩
  rw [co2Word, BitVec.toNat_ofNat, co2Value, Nat.mod_eq_of_lt (by omega)]

/-- Settles O16: the second of the validator's three ways. -/
theorem responseWrongChecksum : Obligations.ResponseWrongChecksum := by
  intro s r hpre hecho hcks
  have hp : r.hasPreamble = true := by simp [RspFrame.hasPreamble, hpre, hecho]
  have hc : checksumMatches r = false := by simpa [checksumMatches] using hcks
  rcases checkPreamble_cases r { s with phase := .chkPre, rsp := some r } with ⟨h, -⟩ | ⟨-, -, h⟩ | ⟨-, h, -⟩
  · simp [hp] at h
  · exact congrArg Host.Outcome.next h
  · simp [hc] at h

/-- Settles O5: the codes are finite tables, and the ports show them. -/
theorem portCodes : Obligations.PortCodes :=
  ⟨by decide, by decide, by decide, by decide, fun r => by cases r <;> rfl, by decide, fun a => by cases a <;> rfl, rfl,
    fun _ => ⟨rfl, rfl, rfl⟩⟩

/-! ### The step (O35, O36, O39, O40, O41) -/

/-- An own step that fetches a frame is exec of it. -/
theorem step_frameInstr {s s1 : State} {i : Instr} (h : OwnStep s s1) (hm : owedMove s1 = none) (hp : s1.phase ≠ .idle)
    (hi : frameInstr s1 = some i) : step s = exec i s1 := by
  simp [step, fetch_own h, ownNext, hm, hp, hi]

/-- A wire frame that decodes to a row of the table with a frame is found in the table. -/
theorem decodeWire_of_decode {p : Params} {f : CmdFrame} {i : Instr} (h : decode p (wireFrame f) = .ok i)
    (hi : (wireRow p i).isSome) : decodeWire p (wireFrame f) = some i := by
  have hd : decodeFrame p (wireFrame f) = .ok i := h
  unfold decodeFrame at hd
  split at hd
  · next hj => cases hd; exact hj
  · split at hd
    · split at hd
      · cases hd; cases hi
      · cases hd
    · cases hd

/-- Settles O35: the frame in progress is the one fetched (`frameInstr`). -/
theorem stepRunsFrameInProgress : Obligations.StepRunsFrameInProgress := by
  constructor
  · intro s s1 f e i ho hm hx hr hc he hd hrow
    obtain ⟨rest, rfl⟩ := ownStep_same ho
    have hwire := decodeWire_of_decode hd (by rcases hw : wireRow s.params i <;> simp_all)
    have hp : s.phase ≠ .idle := by rintro hp; simp [hp, exchanging] at hx
    exact step_frameInstr ho hm hp (by simp [frameInstr, hr, hx, hc, he, hwire, hrow])
  · intro s s1 r ho hp hr hs hd
    obtain ⟨rest, rfl⟩ := ownStep_same ho
    exact step_frameInstr ho (by simp [owedMove, hp]) (by simp [hp]) (by simp [frameInstr, hr, hp, hs, exchanging])

/-- Settles O36: the step is the machine's own, and an idle machine rests. -/
theorem idleWithoutMovesStays : Obligations.IdleWithoutMovesStays := by
  rintro s ⟨ha, hp⟩
  have hown : OwnStep s s := .inl ⟨ha, rfl⟩
  simp [step_own hown, owedMove, hp]

/-- Settles O39: the two clauses are the two branches of the step that takes the write. -/
theorem configurationWrittenBeforeBoot : Obligations.ConfigurationWrittenBeforeBoot := by
  intro s c rest hm
  rw [step_taken hm]
  refine ⟨fun hp hb => if_pos ⟨hp, hb⟩, fun h => if_neg ?_⟩
  rintro ⟨hp, hb⟩
  simp [hp, hb] at h

/-- Settles O40: the step that takes a reset is `resetFramer`, whatever the phase. -/
theorem resetInAnyPhase : Obligations.ResetInAnyPhase := by
  intro s rest hm
  rw [step_taken hm]
  simp [NextAnd, NoTransients]

/-- Settles O41: each register has the value of the table of R35 by definition. -/
theorem resetState : Obligations.ResetState := by
  simp [Obligations.ResetState, State.reset]

/-! ### The steps of an exchange (O53) -/

/-- The exec of the wire frame of an exchange under way is its next step. -/
theorem exec_underWay {s : State} {i : Instr} {f : CmdFrame} {e : Bool} (hi : wireRow s.params i = some (f, e))
    (hc : s.cmd = some f) (he : s.expect = some e) (hr : s.ret = none) (hx : exchanging s.phase = true) :
    exec i s = exchangeStep f e s := by
  simp [exec_wireRow hi, sendCommand, underWay, hc, he, hr, hx]

/-- Settles O53: exec is the step of the exchange in the phase. -/
theorem exchangeSteps : Obligations.ExchangeSteps := by
  intro s i f e hi hc he hr
  have hexec := exec_underWay hi hc he hr
  refine ⟨fun b rest hp hq => ?_, fun hp hq => ?_, fun n c b hp hn hsum hb => ?_, fun n c hp hn hsum hb => ?_, fun hp ht => ?_,
    fun hp ht h0 => ?_, fun hp ht h1 => ?_, fun r rest hp hq => ?_, fun hp hq hw => ?_, fun hp hq hw => ?_⟩
  all_goals rw [hexec (by simp [hp, exchanging])]
  · simp [exchangeStep, hp, drainStep, hq, popByte]
  · simp [exchangeStep, hp, drainStep, hq]
  · simp [exchangeStep, hp, hn, hsum, txStep, hb, pushByte, add8]
  · simp [exchangeStep, hp, hn, hsum, txStep, cmdBytes_getElem?.2 hb, pushByte, checksumOfSum, add8, sub8]
  · simp [exchangeStep, hp, flushStep, ht]
  · simp [exchangeStep, hp, flushStep, ht, h0, flushReturns]
  · simp [exchangeStep, hp, flushStep, ht, h1, flushReturns]
  · simp [exchangeStep, hp, readStep, takeResponse_some.2 hq, readTakes]
  · simp [exchangeStep, hp, readStep, takeResponse_none.2 hq, hw]
  · refine ⟨_, _, (List.take_append_drop (failedReadCount s) s.rxq).symm, ?_⟩
    simp [exchangeStep, hp, readStep, takeResponse_none.2 hq, hw, readFails]

end Sys2Proof.Proofs

/-!
The statements of the family 20_memory: the order of the primitives (O12), the two byte streams (O38, O56), the moves of the
environment (O55), the read of nine bytes (O9, O10, O13, O20), and the two hangs of the transport (O42, O43).
-/

namespace Sys2Proof.Proofs

open Sys2Proof Sys2Proof.Machine

/-! ### The order of the primitives (O12) -/

/-- A step of the exchange in progress does the next primitive of its order, or none (R53). -/
theorem exchangeTo_doneSoFar {f : CmdFrame} {e : Bool} {s t : State} {part : List Act} (hi : SequencerInv s)
    (hr : s.ret = none) (hc : s.cmd = some f) (h : ExchangeTo f e s t) (hd : DoneSoFar s part) :
    ∃ as, t.acts = s.acts ++ as ∧ DoneSoFar t (part ++ as) := by
  cases h with
  | pops b q hp =>
    simp only [DoneSoFar, hp] at hd
    obtain ⟨ps, rfl⟩ := hd
    refine ⟨[.pop b], rfl, ?_⟩
    simp only [DoneSoFar, popByte_phase, hp]
    exact ⟨ps ++ [b], by simp⟩
  | drained hp =>
    simp only [DoneSoFar, hp] at hd
    obtain ⟨ps, rfl⟩ := hd
    exact ⟨[], by simp, f, 0, hc, rfl, ps, rfl⟩
  | pushes i c b hp hn hsum hb =>
    simp only [DoneSoFar, hp] at hd
    obtain ⟨g, j, hg, hj, ps, rfl⟩ := hd
    cases hg.symm.trans hc
    cases hj.symm.trans hn
    refine ⟨[.push b], rfl, ?_⟩
    simp only [DoneSoFar, pushByte_phase, hp]
    refine ⟨f, i + 1, hc, rfl, ps, ?_⟩
    rw [bcnt_succ (cmdBytes_index_lt hb), List.take_add_one, hb]
    simp
  | pushesSum i c hp hn hsum hb =>
    obtain ⟨-, g, j, hg, hj, hps⟩ := sequencerInv_tx hi hp
    cases hg.symm.trans hc
    cases hj.symm.trans hn
    cases hps.symm.trans hsum
    simp only [DoneSoFar, hp] at hd
    obtain ⟨g, j, hg', hj', ps, rfl⟩ := hd
    cases hg'.symm.trans hc
    cases hj'.symm.trans hn
    refine ⟨[.push (checksumOfSum (partialSum f i.toNat))], rfl, f, hc, ps, .inl ⟨hr, ?_⟩⟩
    rw [List.take_of_length_le (by simpa [cmdBytes] using hb), checksum_partialSum hb]
    simp [wireFrame]
  | flushWaits | readWaits => exact ⟨[], by simp, by simpa using hd⟩
  | flushed hp =>
    simp only [DoneSoFar, hp] at hd
    obtain ⟨g, hg, ps, ⟨-, rfl⟩ | ⟨hn, -⟩⟩ := hd
    · refine ⟨[.flush], rfl, ?_⟩
      simp only [DoneSoFar, flushReturns_phase, hp]
      exact ⟨g, hg, ps, .inr ⟨nofun, rfl⟩⟩
    · exact absurd hr hn
  | reads hp =>
    simp only [DoneSoFar, hp] at hd
    obtain ⟨g, hg, ps, ⟨-, rfl⟩ | ⟨hn, -⟩⟩ := hd
    · exact ⟨[.flush], rfl, g, hg, ps, .inl ⟨hr, rfl⟩⟩
    · exact absurd hr hn
  | answered r q hp =>
    simp only [DoneSoFar, hp, hr] at hd
    obtain ⟨g, hg, ps, hd⟩ := hd
    obtain rfl : part = exchangeActs g ps := by simpa using hd
    refine ⟨[.readOk r], rfl, ?_⟩
    simp only [DoneSoFar, readTakes_phase, hp]
    exact ⟨g, hg, ps, .inr (.inl ⟨rfl, r, rfl, rfl⟩)⟩
  | failed hp =>
    simp only [DoneSoFar, hp, hr] at hd
    obtain ⟨g, hg, ps, hd⟩ := hd
    obtain rfl : part = exchangeActs g ps := by simpa using hd
    refine ⟨[.readFail (s.rxq.take (failedReadCount s))], rfl, ?_⟩
    simp only [DoneSoFar, readFails_phase, hp]
    exact ⟨g, hg, ps, .inr (.inr ⟨rfl, _, rfl⟩)⟩

/-- After a step of the exchange in progress nothing is pending if its flush has returned (R47). -/
theorem exchangeTo_sent {f : CmdFrame} {e : Bool} {s t : State} (hr : s.ret = none) (hs : flushed s → s.txPending = [])
    (h : ExchangeTo f e s t) : flushed t → t.txPending = [] := by
  intro ht
  cases h with
  | pops _ _ hp | pushes _ _ _ hp => simp [flushed, hp] at ht
  | drained => simp [flushed] at ht
  | pushesSum => simp [flushed, hr] at ht
  | flushWaits | readWaits => exact hs ht
  | flushed _ hp | reads _ hp => exact hp
  | answered _ _ hp | failed hp => exact hs (.inl hp)

theorem exchangeTo_inOrder {f : CmdFrame} {e : Bool} {s t : State} (hi : SequencerInv s) (hs : InOrder s)
    (hr : s.ret = none) (hc : s.cmd = some f) (h : ExchangeTo f e s t) : InOrder t := by
  obtain ⟨as, ho⟩ := h.only
  obtain ⟨-, -, -, -, -, -, hparams, -, hwire, -⟩ := ho.regs
  obtain ⟨⟨whole, part, hall, hacts, hd⟩, ⟨before, hline⟩, hsent⟩ := hs
  obtain ⟨bs, hbs, hd'⟩ := exchangeTo_doneSoFar hi hr hc h hd
  refine ⟨⟨whole, part ++ bs, hparams ▸ hall, by rw [hbs, hacts, List.append_assoc], hd'⟩, ⟨before, ?_⟩,
    exchangeTo_sent hr hsent h⟩
  rw [hwire, ho.line, ho.acts, pushes_append, ← List.append_assoc, hline, List.append_assoc]

theorem wholeExchange_sent {p : Params} {i : Instr} {f : CmdFrame} (h : wireRow p i = some (f, false)) (ps : List Byte) :
    WholeExchange p (exchangeActs f ps) := ⟨i, f, false, ps, h, by simp⟩

theorem wholeExchange_answered {p : Params} {i : Instr} {f : CmdFrame} (h : wireRow p i = some (f, true)) (ps : List Byte)
    (r : RspFrame) : WholeExchange p (exchangeActs f ps ++ [.readOk r]) := ⟨i, f, true, ps, h, by simp⟩

theorem wholeExchange_failed {p : Params} {i : Instr} {f : CmdFrame} (h : wireRow p i = some (f, true)) (ps bs : List Byte) :
    WholeExchange p (exchangeActs f ps ++ [.readFail bs]) := ⟨i, f, true, ps, h, by simp⟩

/-- When SendCommand has returned, or its response is in RSP, what the exchange has done is a whole exchange (R53). -/
theorem doneSoFar_whole {s : State} {part : List Act} (hi : SequencerInv s) (hr : s.ret ≠ none ∨ s.phase = .chkPre)
    (hd : DoneSoFar s part) : WholeExchange s.params part := by
  have hs := hi.shape
  rcases hp : s.phase <;> simp only [DoneSoFar, PhaseShape, NoTransients, hp, reduceCtorEq, or_false] at hd hs hr
  case flush =>
    obtain ⟨⟨i, f, e, hrow, hc, he, -⟩, -, -, -, hn | ⟨-, he'⟩⟩ := hs
    · exact absurd hn hr
    cases he.symm.trans he'
    obtain ⟨g, hg, ps, ⟨hn, -⟩ | ⟨-, rfl⟩⟩ := hd
    · exact absurd hn hr
    cases hg.symm.trans hc
    exact wholeExchange_sent hrow ps
  case rxWait =>
    obtain ⟨⟨i, f, e, hrow, hc, he, -⟩, -, -, he', -⟩ := hs
    cases he.symm.trans he'
    obtain ⟨g, hg, ps, ⟨hn, -⟩ | ⟨-, r, -, rfl⟩ | ⟨-, bs, rfl⟩⟩ := hd
    · exact absurd hn hr
    · cases hg.symm.trans hc
      exact wholeExchange_answered hrow ps r
    · cases hg.symm.trans hc
      exact wholeExchange_failed hrow ps bs
  case chkPre =>
    obtain ⟨⟨i, f, e, hrow, hc, he, -⟩, -, -, he', -⟩ := hs
    cases he.symm.trans he'
    obtain ⟨g, r, hg, -, ps, rfl⟩ := hd
    cases hg.symm.trans hc
    exact wholeExchange_answered hrow ps r
  case idle | drain | tx => simp_all

/-- An operation in IDLE, or at the beginning of an exchange, has done nothing of one. -/
theorem inOrder_of_nothing {s : State} {whole : List (List Act)} (hp : s.phase = .idle ∨ s.phase = .drain)
    (hall : ∀ as ∈ whole, WholeExchange s.params as) (hacts : s.acts = whole.flatten)
    (hline : ∃ before, s.wire ++ s.txPending = before ++ pushes s.acts) : InOrder s := by
  refine ⟨⟨whole, [], hall, by rw [hacts, List.append_nil], ?_⟩, hline, fun hf => ?_⟩
  · rcases hp with hp | hp <;> simp [DoneSoFar, hp]
  · rcases hp with hp | hp <;> simp [flushed, hp] at hf

/-- A step without a primitive that ends in IDLE or at the beginning of an exchange, taken from IDLE or once an exchange is
whole. -/
theorem bookkeeps_inOrder {s t : State} (hs : InOrder s) (hk : Bookkeeps s t) (ht : t.phase = .idle ∨ t.phase = .drain)
    (hw : ∀ part, DoneSoFar s part → part = [] ∨ WholeExchange s.params part) : InOrder t := by
  obtain ⟨⟨whole, part, hall, hacts, hd⟩, hline, -⟩ := hs
  have hline' : ∃ before, t.wire ++ t.txPending = before ++ pushes t.acts := by rwa [hk.wire, hk.txPending, hk.acts]
  rcases hw part hd with rfl | hp
  · exact inOrder_of_nothing ht (hk.params ▸ hall) (by rw [hk.acts, hacts, List.append_nil]) hline'
  · refine inOrder_of_nothing (whole := whole ++ [part]) ht ?_ (by simp [hk.acts, hacts]) hline'
    simpa [hk.params, or_imp, forall_and] using ⟨hall, hp⟩

/-- The step that takes a request: no exchange is in progress before it, and it does nothing of one. -/
theorem requestTo_inOrder {i : Instr} {s t : State} (hs : InOrder s) (hp : s.phase = .idle) (h : RequestTo i s t) :
    InOrder t := by
  refine bookkeeps_inOrder hs (requestTo_bookkeeps hp h) ?_ fun part hd => .inl (by simpa [DoneSoFar, hp] using hd)
  cases h with
  | nothing => exact .inl hp
  | warms | bootEnds => exact .inl rfl
  | ticks | commands | boots => exact .inr rfl

/-- A TICK whose SendCommand has returned is in RXWAIT: a response is expected (R16, R97). -/
theorem sequencerInv_tick_returned {s : State} {x : SendResult} (hi : SequencerInv s) (hr : s.ret = some x)
    (ho : s.op = some .tick) : s.phase = .rxWait := by
  obtain ⟨-, -, -, ht⟩ := sequencerInv_returned hi hr
  obtain ⟨he, -⟩ := ht ho
  have hs := hi.shape
  rcases hp : s.phase <;> simp [PhaseShape, NoTransients, hp, hr, he] at hs ⊢

/-- TICK goes on to the validation of the response that was read. -/
theorem tickReads_inOrder {s : State} (hi : SequencerInv s) (hs : InOrder s) (hr : s.ret = some .ok)
    (ho : s.op = some .tick) : InOrder { s with phase := .chkPre, ret := none } := by
  have hp := sequencerInv_tick_returned hi hr ho
  obtain ⟨⟨whole, part, hall, hacts, hd⟩, hline, hsent⟩ := hs
  simp only [DoneSoFar, hp, hr, reduceCtorEq, Option.some.injEq, false_and, or_false, false_or, true_and] at hd
  obtain ⟨f, hc, ps, r, hrsp, rfl⟩ := hd
  exact ⟨⟨whole, _, hall, hacts, f, r, hc, hrsp, ps, rfl⟩, hline, fun _ => hsent (.inl hp)⟩

theorem resumeTo_inOrder {s t : State} (hi : SequencerInv s) (hs : InOrder s) (h : ResumeTo s t) : InOrder t := by
  obtain ⟨hgate, hsum, hlatch⟩ := sequencerInv_passed hi
  have ends (hk : Bookkeeps s t) (ht : t.phase = .idle ∨ t.phase = .drain) (hr : s.ret ≠ none ∨ s.phase = .chkPre) :
      InOrder t := bookkeeps_inOrder hs hk ht fun _ hd => .inr (doneSoFar_whole hi hr hd)
  cases h with
  | tickFails hr => exact ends (warn_bookkeeps _ s) (.inl rfl) (.inl (by simp [hr]))
  | tickReads hr ho => exact tickReads_inOrder hi hs hr ho
  | bootSends f x hr => exact ends (startExchange_bookkeeps f false _).of_same (.inr rfl) (.inl (by simp [hr]))
  | bootEnds x hr => exact ends (bootEnd_bookkeeps s) (.inl rfl) (.inl (by simp [hr]))
  | commandEnds x hr => exact ends (finish_bookkeeps s) (.inl rfl) (.inl (by simp [hr]))
  | validates r hr hp => exact ends (checkPreamble_bookkeeps r s) (.inl (by rw [checkPreamble_only]; rfl)) (.inr hp)
  | gate _ hq => exact absurd hq hgate
  | sums _ hq => exact absurd hq hsum
  | latches _ hq => exact absurd hq hlatch
  | exchanges f e t hr hx hc he h => exact exchangeTo_inOrder hi hs hr hc h

/-- The environment performs no primitive, and of the line it only moves the border between what is sent and what is pending. -/
theorem envOnly_inOrder {s t : State} (hs : InOrder s) (h : EnvOnly s t) : InOrder t := by
  obtain ⟨hrecord, ⟨before, hline⟩, hsent⟩ := hs
  refine ⟨?_, ⟨before, ?_⟩, fun hf => h.pending (hsent ?_)⟩
  · rw [h.rest]; exact hrecord
  · rw [h.line, hline, h.rest]
  · rw [h.rest] at hf; exact hf

/-- Settles O12: the exchange in progress does the next primitive of its order, and when it is over it is a whole exchange. -/
theorem exchangePrimitivesInOrder : Obligations.ExchangePrimitivesInOrder := by
  intro s t hi hs h
  have hs' (rest : List Event) : InOrder { s with agenda := rest } := ⟨hs.record, hs.line, hs.sent⟩
  cases step_next h with
  | env m rest => exact envOnly_inOrder (hs' rest) (envMove_only m _)
  | owed m s1 ho =>
    obtain ⟨rest, rfl⟩ := ownStep_same ho
    exact envOnly_inOrder (hs' rest) (envMove_only m _)
  | reset => exact inOrder_of_nothing (whole := []) (.inl rfl) nofun rfl ⟨_, (List.append_nil _).symm⟩
  | config | dropped => exact ⟨hs.record, hs.line, hs.sent⟩
  | requested code range rest i t hm hp hd hx => exact requestTo_inOrder (hs' rest) hp hx
  | rests s1 ho =>
    obtain ⟨rest, rfl⟩ := ownStep_same ho
    exact hs' rest
  | goes s1 t ho hm hp hx =>
    obtain ⟨rest, rfl⟩ := ownStep_same ho
    exact resumeTo_inOrder (sequencerInv_agenda hi rest) (hs' rest) hx

/-! ### The two byte streams (O38, O56) -/

/-- Settles O38: only a push of an exchange extends the line, and only the environment moves bytes along it. -/
theorem lineCarriesEveryPush : Obligations.LineCarriesEveryPush := by
  intro s t h
  cases step_kind h with
  | resets rest hr => exact ⟨fun _ => ⟨rfl, rfl⟩, absurd hr⟩
  | moves rest _ hr hk =>
    refine ⟨fun k => absurd k hr, fun _ => ⟨[], by rw [hk.rest]; simp, ?_⟩⟩
    rw [hk.line]; simp [pushes]
  | configures c rest hr => exact ⟨fun k => absurd k hr, fun _ => ⟨[], by simp, by simp [pushes]⟩⟩
  | bookkeeps _ hr hk =>
    refine ⟨fun k => absurd k hr, fun _ => ⟨[], by simp [hk.acts], ?_⟩⟩
    simp [hk.wire, hk.txPending, pushes]
  | exchanges f e rest _ hr hk =>
    obtain ⟨as, ho⟩ := hk.only
    obtain ⟨-, -, -, -, -, -, -, -, hwire, -⟩ := ho.regs
    refine ⟨fun k => absurd k hr, fun _ => ⟨as, ho.acts, ?_⟩⟩
    rw [hwire, ho.line, List.append_assoc]

/-- A step that performs no primitive: it takes nothing from RXQ, and no read answers. -/
structure NoPrimitive (s t : State) : Prop where
  acts : t.acts = s.acts
  rxq : t.rxq = s.rxq
  ret : t.ret = s.ret ∨ t.ret = none

theorem requestTo_noPrimitive {i : Instr} {s t : State} (h : RequestTo i s t) : NoPrimitive s t := by
  cases h with
  | nothing => exact ⟨rfl, rfl, .inl rfl⟩
  | _ => exact ⟨rfl, rfl, .inr rfl⟩

theorem latch_noPrimitive (r : RspFrame) (s : State) : NoPrimitive s (latch r s) := by
  rw [latch_eq]; exact ⟨rfl, rfl, .inr rfl⟩

/-- The framer's own step is a step of the exchange in progress, or performs no primitive. -/
theorem resumeTo_noPrimitive_or_exchange {s t : State} (h : ResumeTo s t) :
    NoPrimitive s t ∨ ∃ f e, ExchangeTo f e s t := by
  cases h with
  | exchanges f e t hr hx hc he h => exact .inr ⟨f, e, h⟩
  | tickFails | tickReads | bootSends | bootEnds | commandEnds => exact .inl ⟨rfl, rfl, .inr rfl⟩
  | gate t hp h => rcases tickGate_next h with rfl | rfl <;> exact .inl ⟨rfl, rfl, .inr rfl⟩
  | validates r => rw [checkPreamble_only]; exact .inl ⟨rfl, rfl, .inr rfl⟩
  | sums r =>
    left
    unfold checkSum
    split
    · obtain ⟨ha, hq, hr⟩ := latch_noPrimitive r { s with phase := .latch }
      exact ⟨ha, hq, hr⟩
    · exact ⟨rfl, rfl, .inr rfl⟩
  | latches r => exact .inl (latch_noPrimitive r s)

/-- A step that is no reset, as RXQ and the read see it (`StepKind` speaks of neither): the environment moves; nothing reaches RXQ
or leaves it; or it is a step of the exchange in progress. -/
inductive StreamStep (s : State) : State → Prop
  | arrives (m : EnvMove) (rest : List Event) (h : Taken s (.env m) rest) :
      StreamStep s (envMove m { s with agenda := rest })
  | owed (m : EnvMove) (rest : List Event) (h : owedMove { s with agenda := rest } = some m) :
      StreamStep s (envMove m { s with agenda := rest })
  | noPrimitive (t : State) (h : NoPrimitive s t) : StreamStep s t
  | exchanges (f : CmdFrame) (e : Bool) (rest : List Event) (t : State) (h : ExchangeTo f e { s with agenda := rest } t) :
      StreamStep s t

theorem step_stream {s t : State} (h : step s = .next t) (hr : ¬ResetTaken s) : StreamStep s t := by
  cases step_next h with
  | env m rest hm => exact .arrives m rest hm
  | owed m s1 ho hm =>
    obtain ⟨rest, rfl⟩ := ownStep_same ho
    exact .owed m rest hm
  | reset rest hm => exact absurd ⟨rest, hm⟩ hr
  | config | dropped => exact .noPrimitive _ ⟨rfl, rfl, .inl rfl⟩
  | requested code range rest i t hm hp hd hx =>
    obtain ⟨ha, hq, hr⟩ := requestTo_noPrimitive hx
    exact .noPrimitive _ ⟨ha, hq, hr⟩
  | rests s1 ho =>
    obtain ⟨rest, rfl⟩ := ownStep_same ho
    exact .noPrimitive _ ⟨rfl, rfl, .inl rfl⟩
  | goes s1 t ho hm hp hx =>
    obtain ⟨rest, rfl⟩ := ownStep_same ho
    rcases resumeTo_noPrimitive_or_exchange hx with ⟨ha, hq, hr⟩ | ⟨f, e, hk⟩
    · exact .noPrimitive _ ⟨ha, hq, hr⟩
    · exact .exchanges f e rest t hk

theorem step_reset {s t : State} (h : step s = .next t) (hr : ResetTaken s) :
    ∃ rest, t = resetFramer { s with agenda := rest } := by
  obtain ⟨rest, hm⟩ := hr
  rw [step_taken hm] at h
  cases h
  exact ⟨rest, rfl⟩

/-- The move the environment owes is a byte sent, or the byte of a flood into a drain's empty queue (R47, R93). -/
theorem owedMove_cases {s : State} {m : EnvMove} (h : owedMove s = some m) :
    m = .sent ∨ (s.phase = .drain ∧ s.rxq = [] ∧ ∃ b, s.floods = some b ∧ m = .rx [b]) := by
  unfold owedMove at h
  split at h
  · split at h <;> cases h; exact .inl rfl
  · next hp =>
    split at h
    · next b hq hf => split at h <;> cases h; exact .inr ⟨hp, hq, b, hf, rfl⟩
    · cases h
  · cases h

theorem envMove_acts (m : EnvMove) (s : State) : (envMove m s).acts = s.acts := by rw [(envMove_only m s).rest]

theorem envMove_ret (m : EnvMove) (s : State) : (envMove m s).ret = s.ret := by rw [(envMove_only m s).rest]

theorem envMove_sent_rxq (s : State) : (envMove .sent s).rxq = s.rxq := by
  rcases envMove_rxq .sent s with h | ⟨_, ⟨⟩, -⟩
  exact h

/-- A step that performs no primitive keeps the stream when what it appends to RXQ is what arrived. -/
theorem stream_of_arrived {s t : State} {arrived : List Byte} (ha : t.acts = s.acts) (hq : t.rxq = s.rxq ++ arrived) :
    t.acts = s.acts ++ [] ∧ s.rxq ++ arrived = takenBytes [] ++ t.rxq := by
  simp [ha, hq, takenBytes]

/-- The receive stream over the primitives of one step of an exchange: bytes arrive with the return of the flush alone. -/
theorem exchangeOnly_stream {s t : State} {as : List Act} (h : ExchangeOnly s t as) :
    ∃ arrived, s.rxq ++ arrived = takenBytes as ++ t.rxq ∧ (arrived = [] ∨ (as = [.flush] ∧ arrived = s.onFlush)) := by
  rcases h.queue with ⟨hq, hpre⟩ | ⟨rfl, hq⟩
  · exact ⟨[], by rw [hq, List.append_nil, List.prefix_iff_eq_append.1 hpre], .inl rfl⟩
  · exact ⟨s.onFlush, by rw [hq]; rfl, .inr ⟨rfl, rfl⟩⟩

/-- Settles O56: bytes arrive by the environment's moves and with the flush, and leave by the primitives of an exchange. -/
theorem receiveStreamKept : Obligations.ReceiveStreamKept := by
  intro s t h
  refine ⟨fun hr => ?_, fun hr => ?_⟩
  · obtain ⟨rest, rfl⟩ := step_reset h hr
    rfl
  cases step_stream h hr with
  | arrives m rest hm =>
    have ha : (envMove m { s with agenda := rest }).acts = s.acts := envMove_acts m _
    rcases envMove_rxq m { s with agenda := rest } with hq | ⟨bs, rfl, hq⟩
    · obtain ⟨h1, h2⟩ := stream_of_arrived (arrived := []) ha (hq.trans (List.append_nil _).symm)
      exact ⟨[], [], h1, h2, .inl rfl⟩
    · obtain ⟨h1, h2⟩ := stream_of_arrived (s := s) ha hq
      exact ⟨[], bs, h1, h2, .inr (.inl ⟨rest, hm⟩)⟩
  | owed m rest hm =>
    have ha : (envMove m { s with agenda := rest }).acts = s.acts := envMove_acts m _
    rcases owedMove_cases hm with rfl | ⟨hp, hq, b, hf, rfl⟩
    · obtain ⟨h1, h2⟩ := stream_of_arrived (arrived := []) ha ((envMove_sent_rxq _).trans (List.append_nil _).symm)
      exact ⟨[], [], h1, h2, .inl rfl⟩
    · obtain ⟨h1, h2⟩ := stream_of_arrived (s := s) (arrived := [b]) ha rfl
      exact ⟨[], [b], h1, h2, .inr (.inr (.inr ⟨hp, hq, rfl, b, hf, rfl⟩))⟩
  | noPrimitive _ hk =>
    obtain ⟨h1, h2⟩ := stream_of_arrived (arrived := []) hk.acts (hk.rxq.trans (List.append_nil _).symm)
    exact ⟨[], [], h1, h2, .inl rfl⟩
  | exchanges f e rest _ hk =>
    obtain ⟨as, ho⟩ := hk.only
    obtain ⟨arrived, hstream, ha⟩ := exchangeOnly_stream ho
    exact ⟨as, arrived, ho.acts, hstream, ha.imp_right fun h => .inr (.inl h)⟩

/-! ### The moves of the environment (O55) -/

/-- Settles O55: the step that takes a move is `envMove`, and a waiting flush is owed the move that sends a byte. -/
theorem environmentMoves : Obligations.EnvironmentMoves := by
  refine ⟨fun s rest => ⟨fun bs hm => step_taken hm, fun b q hm ht => ?_, fun hm ht => ?_, fun bs hm => step_taken hm,
    fun hm => step_taken hm, fun d hm => step_taken hm⟩, fun s s1 b q ho hp hr hs ht => ?_⟩
  · simp [step_taken hm, envMove, ht]
  · simp [step_taken hm, envMove, ht]
  · obtain ⟨rest, rfl⟩ := ownStep_same ho
    simp [step_own ho, owedMove, hp, hr, hs, ht, envMove]

/-! ### The read of nine bytes (O13, O9, O10, O20) -/

/-- Behind a blocking transport the only read that answers is one that succeeds (R45). -/
theorem exchangeTo_blocking {f : CmdFrame} {e : Bool} {s t : State} (hb : s.params.transportBlocking = true)
    (h : ExchangeTo f e s t) :
    (∀ bs, .readFail bs ∈ t.acts → .readFail bs ∈ s.acts) ∧ (t.ret = some .fail → s.ret = some .fail) := by
  cases h with
  | failed hp hq hw => simp [readWaits, hb] at hw
  | pops | drained | pushes | pushesSum | flushWaits | flushed | reads | answered | readWaits => simp

/-- Settles O13: a read fails in a step of an exchange, and only where the transport does not block. -/
theorem blockingReadNeverFails : Obligations.BlockingReadNeverFails := by
  intro s t hb h
  by_cases hr : ResetTaken s
  · obtain ⟨rest, rfl⟩ := step_reset h hr
    simp
  cases step_stream h hr with
  | arrives m rest | owed m rest => simp [envMove_acts, envMove_ret]
  | noPrimitive _ hk => rcases hk.ret with hr | hr <;> simp [hk.acts, hr]
  | exchanges f e rest _ hk => exact exchangeTo_blocking (s := { s with agenda := rest }) hb hk

theorem exec_wireGetReading_idle {s : State} (hp : s.phase = .idle) :
    exec .wireGetReading s = .next (startExchange getReadingFrame true s) := by
  rw [exec_wireRow (i := .wireGetReading) rfl, sendCommand, if_neg]
  simp [underWay, hp, exchanging]

theorem readStep_answered {s : State} {r : RspFrame} {rest : List Byte} (h : s.rxq = rspBytes r ++ rest) :
    readStep s = readTakes r rest s := by
  rw [readStep, takeResponse_some.2 h]

theorem readStep_fails {s : State} (hl : s.rxq.length < 9) (hw : readWaits s = false) : readStep s = readFails s := by
  rw [readStep, takeResponse_none.2 hl]
  simp [hw]

/-- Settles O9: the flush brings the nine bytes, and the read takes them. -/
theorem wireGetReadingAnswered : Obligations.WireGetReadingAnswered := by
  intro s r rest hp hq hf hr
  have hread := reaches_read getReadingFrame hq hf (by simp [hr, rspBytes])
  rw [readStep_answered] at hread
  · exact ⟨exec_wireGetReading_idle hp, hread⟩
  · exact hr

/-- An exchange whose response stays short, behind a transport that gives up, ends with FAIL: the failing read removes some bytes
from the head of the queue (R45, R97; log entries 9, 20). -/
theorem reaches_readFails (f : CmdFrame) {s : State} (hq : Quiet s) (hf : Fair s) (hl : s.onFlush.length < 9)
    (hb : s.params.transportBlocking = false) (hg : s.giveUp = true ∨ moveAhead s = false) :
    ∃ bs rest, s.onFlush = bs ++ rest ∧ Reaches (startExchange f true s)
      { exchanged f s with
        phase := .rxWait, cmd := some f, expect := some true, csum := none, bcnt := none, rxq := rest, rsp := none,
        ret := some .fail, giveUp := false, draws := s.draws + 1, acts := (exchanged f s).acts ++ [.readFail bs] } := by
  have hw : readWaits s = false := by rcases hg with hg | hg <;> simp [readWaits, hb, hg]
  have hread := reaches_read f hq hf fun _ => hw
  rw [readStep_fails] at hread
  · exact ⟨_, _, (List.take_append_drop _ s.onFlush).symm, hread⟩
  · exact hl
  · exact hw

/-- Settles O10: the short read fails (`reaches_readFails`). -/
theorem wireGetReadingFails : Obligations.WireGetReadingFails := by
  intro s hp hq hf hl hb hg
  exact ⟨exec_wireGetReading_idle hp, reaches_readFails getReadingFrame hq hf hl hb hg⟩

/-- TICK past the window begins the exchange of get reading (R110 to R112). -/
theorem exec_tick_sends {s : State} (hr : ready s = true) (hc : clockInRange s = true)
    (hw : s.cfg.warmupS.toNat * 1000 ≤ s.nowMs) :
    exec .tick s = .next (startExchange getReadingFrame true (beginOp .tick s)) := by
  have hgate : clockInRange { beginOp .tick s with phase := .gate } = true := hc
  have hwarm : inWarmup { beginOp .tick s with phase := .gate } = false := decide_eq_false (Nat.not_lt.2 hw)
  simp only [exec, execTick, hr, tickGate, hgate, hwarm]
  rfl

/-- Settles O20: the read fails as in O10, and the tick takes the result. -/
theorem tickTransportFails : Obligations.TickTransportFails := by
  intro s hr hq hf hc hw hl hb hg
  refine ⟨exec_tick_sends hr hc hw, ?_⟩
  obtain ⟨bs, rest, hbs, hread⟩ := reaches_readFails getReadingFrame (s := beginOp .tick s) hq hf hl hb hg
  exact ⟨bs, rest, hbs, reaches_trans hread (reaches_one (step_returned hq nofun rfl rfl))⟩

/-! ### The transport hangs (O42, O43) -/

/-- Some steps lead to a state in phase `p` from which no step leads away. -/
def Hangs (p : Phase) (t : State) : Prop := ∃ u, Reaches t u ∧ u.phase = p ∧ Stuck u ∧ step u = .next u

theorem hangs_of_stuck {f : CmdFrame} {e : Bool} {t u : State} (h : Reaches t u) (hs : Stuck u) (hc : u.cmd = some f)
    (he : u.expect = some e) : Hangs u.phase t := ⟨u, h, rfl, hs, step_stuck hs hc he⟩

/-- Settles O42: the exchange comes to its read, which waits for ever. -/
theorem silentSensorHangsBlockingRead : Obligations.SilentSensorHangsBlockingRead := by
  intro s hr ha hf hc hw hb hl
  rw [exec_tick_sends hr hc hw]
  refine hangs_of_stuck (reaches_flush getReadingFrame true (s := beginOp .tick s) (.inl ha) hf) ⟨ha, ?_⟩ rfl rfl
  simp [waits, readWaits, exchanged, hb, hl]

/-- Behind a lower layer that stalls, an exchange comes to its flush, which waits for ever. -/
theorem startExchange_hangs {f : CmdFrame} {e : Bool} {s : State} (ha : s.agenda = []) (hs : s.stalls = true)
    (hf : s.floods = none) : Hangs .flush (startExchange f e s) := by
  have hdrained := reaches_drained (f := f) (e := e) (s := startExchange f e s) (.inl ha) hf rfl rfl rfl rfl
  have hpushed := reaches_pushed (f := f) (e := e)
    (s := { startExchange f e s with rxq := [], acts := s.acts ++ s.rxq.map .pop, phase := .tx, bcnt := some 0, csum := some 0 })
    (.inl ha) rfl rfl rfl rfl rfl rfl
  refine hangs_of_stuck (reaches_trans hdrained hpushed) ⟨ha, ?_⟩ rfl rfl
  simp [waits, hs, wireFrame]

/-- Settles O43: each of the seven commands begins an exchange. -/
theorem stalledLowerLayerHangsFlush : Obligations.StalledLowerLayerHangsFlush := by
  intro s i hi hr ha hs hf
  have hangs (o : Op) (f : CmdFrame) : Hangs .flush (command o f s) := by
    rw [command, if_pos hr]
    exact startExchange_hangs (s := beginOp o s) ha hs hf
  simp only [List.mem_cons, List.not_mem_nil, or_false] at hi
  rcases hi with rfl | rfl | rfl | rfl | rfl | rfl | rfl
  all_goals exact hangs _ _

end Sys2Proof.Proofs

/-!
The statements of the family 30_encoding: decoding and encoding (O1 to O4), the response that is published (O14, O27), and the
requests an idle machine runs or refuses (O33, O34). The round trips (O2, O3) rest on what an encoding is (`encode_cases`) and on
the two readings of nine bytes (`decodeWire_some`, `decodeWire_rspBytes`).
-/

namespace Sys2Proof.Proofs

open Sys2Proof Sys2Proof.Machine

/-! ### Operation words -/

/-- The three fields of an operation word are read back (R80). -/
theorem requestWord_fields : ∀ (code : BitVec 4) (range : BitVec 2),
    (requestWord code range).extractLsb' 6 2 = 0#2 ∧ (requestWord code range).extractLsb' 2 4 = code ∧
      (requestWord code range).extractLsb' 0 2 = range := by decide

/-- A byte with bits 7:6 zero is the operation word of its two fields (R80). -/
theorem requestWord_of_fields {b : Byte} (h : b.extractLsb' 6 2 = 0#2) :
    requestWord (b.extractLsb' 2 4) (b.extractLsb' 0 2) = b := by
  rw [requestWord, ← h, BitVec.extractLsb'_append_extractLsb'_eq_extractLsb' (by decide),
    BitVec.extractLsb'_append_extractLsb'_eq_extractLsb' (by decide)]
  exact BitVec.extractLsb'_eq_self

theorem decode_requestWord (p : Params) (code : BitVec 4) (range : BitVec 2) :
    decode p [requestWord code range] = decodeRequest code range := by
  obtain ⟨habove, hcode, hrange⟩ := requestWord_fields code range
  simp [decode, habove, hcode, hrange]

/-- No operation has an `op_code` of 7 to 15 (R80). -/
theorem decodeRequest_unknown {code : BitVec 4} (h : 7 ≤ code.toNat) (range : BitVec 2) :
    decodeRequest code range = .error .noSuchOperation := by
  unfold decodeRequest
  split
  case h_8 => rfl
  all_goals omega

/-! ### Wire frames -/

theorem lookupFrame_of_mem {f : CmdFrame} {i : Instr} {table : List (CmdFrame × Instr)} (hd : (table.map Prod.fst).Nodup)
    (h : (f, i) ∈ table) : lookupFrame f table = some i := by
  induction table with
  | nil => cases h
  | cons row table ih =>
    obtain ⟨g, j⟩ := row
    obtain ⟨hg, hd⟩ := List.nodup_cons.1 hd
    rcases List.mem_cons.1 h with hrow | hrest
    · cases hrow
      exact if_pos rfl
    · have hne : f ≠ g := fun heq => hg (List.mem_map.2 ⟨(f, i), hrest, heq⟩)
      exact (if_neg hne).trans (ih hd hrest)

theorem wireRow_mem_wireTable {p : Params} {i : Instr} {f : CmdFrame} {e : Bool} (h : wireRow p i = some (f, e)) :
    (f, i) ∈ wireTable p := by
  cases i <;> cases h <;> simp [wireTable]

theorem decodeWire_wireFrame (p : Params) (f : CmdFrame) : decodeWire p (wireFrame f) = lookupFrame f (wireTable p) := by
  simp [decodeWire, cmdOfBytes_wireFrame]

/-- What decodes as a wire frame is the wire frame of its row (R61, R69). -/
theorem decodeWire_some {p : Params} {bs : List Byte} {i : Instr} (h : decodeWire p bs = some i) :
    ∃ f e, wireRow p i = some (f, e) ∧ bs = wireFrame f := by
  unfold decodeWire at h
  split at h
  · next f _ =>
    split at h
    · next hbs =>
      obtain ⟨⟨g, e⟩, hrow, rfl⟩ := Option.map_eq_some_iff.1 (lookupFrame_row h)
      exact ⟨g, e, hrow, hbs⟩
    · cases h
  · cases h

/-- The frames of the table are well formed if the parameters are (R63, R78). -/
theorem tableFrames_wellFormed {p : Params} (hp : paramsWellFormed p = true) {f : CmdFrame} (h : f ∈ tableFrames p) :
    f.wellFormed = true := by
  simp only [paramsWellFormed, Bool.and_eq_true] at hp
  simp only [tableFrames, wireTable, List.map_cons, List.map_nil, List.mem_cons, List.not_mem_nil, or_false] at h
  rcases h with rfl | rfl | rfl | rfl | rfl | rfl | rfl | rfl
  · rfl
  · rfl
  all_goals simp [hp]

/-- A response with its preamble is no wire frame of the table: byte 1 is 0x86 and not 0x01 (R63, R64). -/
theorem decodeWire_rspBytes {p : Params} (hp : paramsWellFormed p = true) {r : RspFrame} (hr : r.hasPreamble = true) :
    decodeWire p (rspBytes r) = none := by
  rcases h : decodeWire p (rspBytes r) with _ | i
  · rfl
  · obtain ⟨f, e, hrow, hbytes⟩ := decodeWire_some h
    have hf := tableFrames_wellFormed hp (wireRow_mem_tableFrames hrow)
    have hbyte1 : r.echo = f.devid := congrArg (·[1]!) hbytes
    simp only [CmdFrame.wellFormed, RspFrame.hasPreamble, Bool.and_eq_true, beq_iff_eq] at hf hr
    rw [hr.2, hf.2] at hbyte1
    cases hbyte1

/-! ### The round trips (O1 to O4) -/

theorem encode_wireRow {p : Params} {i : Instr} {f : CmdFrame} {e : Bool} (h : wireRow p i = some (f, e)) :
    encode p i = wireFrame f := by
  cases i <;> cases h <;> rfl

theorem wireRow_wellFormed {p : Params} {i : Instr} {f : CmdFrame} {e : Bool} (h : wireRow p i = some (f, e)) :
    i.wellFormed = true := by
  cases i <;> cases h <;> rfl

/-- What the encoding of an instruction is: a wire frame of the table, a response, or an operation word. -/
theorem encode_cases (p : Params) (i : Instr) :
    (∃ f e, wireRow p i = some (f, e)) ∨ (∃ r, i = .rspGetReading r) ∨
      ∃ code range, encode p i = [requestWord code range] ∧ decodeRequest code range = .ok i := by
  cases i with
  | wireGetReading | wireRange5000 | wireRange2000 | wireRange10000 | wireAbcEnable | wireAbcDisable | wireCalibrateZero
  | wireRecover => exact .inl ⟨_, _, rfl⟩
  | rspGetReading r => exact .inr (.inl ⟨r, rfl⟩)
  | _ => exact .inr (.inr ⟨_, _, rfl, rfl⟩)

/-- Nine bytes are decoded as a frame. -/
theorem decode_nine {p : Params} {bs : List Byte} (h : bs.length = 9) : decode p bs = decodeFrame p bs := by
  unfold decode
  split
  · simp at h
  · rw [if_pos h]

/-- Settles O2: the first row with a frame is the only one, a response is no row's frame, and a word's fields are read back. -/
theorem decodeOfEncode : Obligations.DecodeOfEncode := by
  intro p hp hdistinct i hi
  have htable : ((wireTable p).map Prod.fst).Nodup := of_decide_eq_true hdistinct
  rcases encode_cases p i with ⟨f, e, hrow⟩ | ⟨r, rfl⟩ | ⟨code, range, henc, hdec⟩
  · have hwire : decodeWire p (wireFrame f) = some i := by
      rw [decodeWire_wireFrame, lookupFrame_of_mem htable (wireRow_mem_wireTable hrow)]
    rw [encode_wireRow hrow, decode_nine rfl, decodeFrame, hwire]
  · have htake : takeResponse (rspBytes r) = some (r, []) := rfl
    rw [encode, decode_nine rfl, decodeFrame, decodeWire_rspBytes hp hi, htake]
    exact if_pos hi
  · rw [henc, decode_requestWord, hdec]

/-- What decodes as a frame is well formed and is the encoding of its instruction. -/
theorem encode_of_decodeFrame {p : Params} {bs : List Byte} {i : Instr} (hl : bs.length = 9) (h : decodeFrame p bs = .ok i) :
    i.wellFormed = true ∧ encode p i = bs := by
  unfold decodeFrame at h
  split at h
  · next hwire =>
    cases h
    obtain ⟨f, e, hrow, rfl⟩ := decodeWire_some hwire
    exact ⟨wireRow_wellFormed hrow, encode_wireRow hrow⟩
  · split at h
    · next r rest htake =>
      split at h
      · next hr =>
        cases h
        obtain rfl := takeResponse_some.1 htake
        obtain rfl : rest = [] := List.eq_nil_of_length_eq_zero (by simpa [rspBytes] using hl)
        exact ⟨hr, (List.append_nil _).symm⟩
      · cases h
    · cases h

/-- A requested operation has no operand, so it is well formed. -/
theorem decodeRequest_wellFormed {code : BitVec 4} {range : BitVec 2} {i : Instr} (h : decodeRequest code range = .ok i) :
    i.wellFormed = true := by
  unfold decodeRequest at h
  split at h
  case h_7 => split at h <;> cases h <;> rfl
  all_goals cases h
  all_goals rfl

/-- Settles O3: one byte that decodes is the word of its fields, nine bytes are a frame. -/
theorem encodeOfDecode : Obligations.EncodeOfDecode := by
  intro p bs i h
  unfold decode at h
  split at h
  · next b =>
    split at h
    · next habove => exact ⟨decodeRequest_wellFormed h, .inr ⟨_, _, by rw [requestWord_of_fields habove], h⟩⟩
    · cases h
  · split at h
    · next hl =>
      obtain ⟨hi, henc⟩ := encode_of_decodeFrame hl h
      exact ⟨hi, .inl ⟨hl, henc⟩⟩
    · cases h

/-- Settles O1: closed words, decoded by evaluation. -/
theorem decodesSpecWords : Obligations.DecodesSpecWords := by
  unfold Obligations.DecodesSpecWords
  decide

/-- Settles O4: the row of SET_RANGE is the only one that looks at the range. -/
theorem opRangeReadBySetRangeOnly : Obligations.OpRangeReadBySetRangeOnly := by
  intro code r r' hcode
  unfold decodeRequest
  split
  case h_7 h => exact absurd (BitVec.eq_of_toNat_eq h) hcode
  all_goals rfl

/-! ### The response accepted (O14, O27) -/

/-- The validator on an accepted response goes on to LATCH (R113, R114). -/
theorem checkPreamble_accepted {r : RspFrame} (h : accepted r = true) (s : State) : checkPreamble r s = latch r s := by
  obtain ⟨hpre, hsum⟩ := Bool.and_eq_true_iff.1 h
  rcases checkPreamble_cases r s with ⟨hn, -⟩ | ⟨-, hn, -⟩ | ⟨-, -, hlatch⟩
  · simp [hpre] at hn
  · simp [hsum] at hn
  · rw [hlatch, latch_eq, latch_eq]
    rfl

/-- Settles O14: the third of the validator's three ways. -/
theorem responsePublished : Obligations.ResponsePublished := by
  intro s r hpre hecho hcks
  have haccepted : accepted r = true := by simp [accepted, RspFrame.hasPreamble, checksumMatches, hpre, hecho, ← hcks]
  rw [exec, execRspGetReading, checkPreamble_accepted haccepted, latch_eq]
  rfl

/-- The validator looks at no transient register, and an operation's end clears them all. -/
theorem checkPreamble_finish (r : RspFrame) (s : State) : checkPreamble r (finish s) = checkPreamble r s := by
  unfold checkPreamble checkSum
  split
  · split
    · rw [latch_eq, latch_eq]
      rfl
    · rfl
  · rfl

/-- A TICK whose armed reply begins with nine bytes runs to their validation (R112, R113). -/
theorem tick_reaches_validated {s : State} {r : RspFrame} {rest : List Byte} (hq : Quiet s) (hf : Fair s)
    (hreply : s.onFlush = rspBytes r ++ rest) :
    Reaches (startExchange getReadingFrame true (beginOp .tick s)) (checkPreamble r
      { finish (exchanged getReadingFrame s) with
        rxq := rest, giveUp := false, acts := (exchanged getReadingFrame s).acts ++ [.readOk r] }) := by
  have hread := reaches_read getReadingFrame (s := beginOp .tick s) hq hf (by simp [hreply, rspBytes])
  rw [readStep_answered (by exact hreply)] at hread
  refine reaches_trans hread (reaches_trans (reaches_one (step_returned hq nofun rfl rfl)) ?_)
  refine reaches_one (step_validates hq rfl rfl rfl ?_)
  rw [← checkPreamble_finish]
  rfl

/-- The CO2 register holds bytes 2 and 3 side by side, byte 2 first (R65). -/
theorem co2Word_eq_append (r : RspFrame) : co2Word r = r.ppmHi ++ r.ppmLo := by
  apply BitVec.eq_of_toNat_eq
  rw [(extractedValues r).1, BitVec.toNat_append, ← Nat.shiftLeft_add_eq_or_of_lt r.ppmLo.isLt, Nat.shiftLeft_eq]

/-- The nine bytes the ideal sensor of 95_test_vectors.md section 4 answers. -/
def idealResponse (hi lo tb st : Byte) : RspFrame :=
  ⟨0xFF, 0x86, hi, lo, tb, st, 0x00, 0x00, checksum [0xFF, 0x86, hi, lo, tb, st, 0x00, 0x00]⟩

theorem idealResponse_accepted (hi lo tb st : Byte) : accepted (idealResponse hi lo tb st) = true := by
  have hsum : checksumMatches (idealResponse hi lo tb st) = true := beq_self_eq_true _
  rw [accepted, hsum]
  rfl

/-- Settles O27: the ideal sensor's nine bytes are an accepted response, and its fields are the measurement. -/
theorem idealSensorReading : Obligations.IdealSensorReading := by
  intro s hi lo tb st hr hq hf hc hw hreply
  have hrun := tick_reaches_validated (r := idealResponse hi lo tb st) (rest := []) hq hf hreply
  rw [checkPreamble_accepted (idealResponse_accepted hi lo tb st), latch_eq] at hrun
  obtain ⟨-, htemp, -⟩ := extractedValues (idealResponse hi lo tb st)
  have hco2 := co2Word_eq_append (idealResponse hi lo tb st)
  rw [exec_tick_sends hr hc hw]
  exact ⟨_, hrun, rfl, rfl, rfl, rfl, fun hen => (if_pos hen).trans (congrArg some hco2),
    fun hen => ⟨_, if_pos hen, htemp⟩⟩

/-! ### Requests (O33, O34) -/

theorem command_refused {s : State} (h : ready s = false) (o : Op) (f : CmdFrame) : command o f s = s := by
  simp [command, h]

/-- Settles O33: each operation asks first whether the framer takes it, and the step drops a request it cannot run. -/
theorem refusedRequestsDoNothing : Obligations.RefusedRequestsDoNothing := by
  refine ⟨fun s hb => ?_, fun s i hi hr => ?_, fun s code range rest hm hp hcode => ?_, fun s code range rest hm hp => ?_⟩
  · simp [exec, execBoot, hb]
  · cases i with
    | tick => simp [exec, execTick, hr]
    | recover | calibrateZero | abcEnable | abcDisable | setRange2000 | setRange5000 | setRange10000 =>
      exact congrArg Host.Outcome.next (command_refused hr _ _)
    | setRangeDefault => rfl
    | _ => simp at hi
  · simp [step_taken hm, hp, decodeRequest_unknown hcode]
  · simp [step_taken hm, hp]

/-- Settles O34: the word decodes to the operation its fields request. -/
theorem stepRunsRequestedOperation : Obligations.StepRunsRequestedOperation := by
  intro s code range rest i hm hp hd
  rw [decode_requestWord] at hd
  simp [step_taken hm, hp, hd]

end Sys2Proof.Proofs

/-!
The statements of the family 40_frame_codec: the checksum (O6, O7), the exchanges that expect no response (O8), the frame of a step
of an exchange (O11), a flooded drain (O44), and the caller that goes on when SendCommand has returned (O54). Both checksum
statements rest on one reading of R90: the checksum is the negative of the wrapped sum (`checksum_eq_neg_sum`), so a frame of nine
bytes matches exactly when its bytes 1 to 8 sum to zero (`matches_iff_tail_sum`).
-/

namespace Sys2Proof.Proofs

open Sys2Proof Sys2Proof.Machine

/-! ### Sums of bytes -/

/-- The wrapped sum of bytes is their exact sum modulo 256. -/
theorem toNat_sum_bytes (l : List Byte) : l.sum.toNat = (l.map BitVec.toNat).sum % 256 := by
  induction l with
  | nil => rfl
  | cons b l ih => simp [BitVec.toNat_add, ih]

theorem sum_bytes_eq_zero_iff (l : List Byte) : l.sum = 0 ↔ (l.map BitVec.toNat).sum % 256 = 0 := by
  rw [← toNat_sum_bytes, ← BitVec.toNat_inj]
  rfl

/-- One byte of an array other than byte 0 is replaced: the sum behind byte 0 changes by the difference. -/
theorem tail_sum_set {F : List Byte} {j : Nat} (h1 : 1 ≤ j) (hj : j < F.length) (b : Byte) :
    ((F.set j b).drop 1).sum = (F.drop 1).sum + (b - F[j]!) := by
  have hlt : j - 1 < (F.drop 1).length := by rw [List.length_drop]; omega
  have hget : (F.drop 1)[j - 1] = F[j]! := by simp [getElem!_pos F j hj, Nat.sub_add_cancel h1]
  rw [List.drop_set, if_neg (by omega), List.sum_set', dif_pos hlt, hget, neg_add_eq_sub]

/-! ### The checksum (O6, O7) -/

theorem checksumSum_eq_sum (F : List Byte) : checksumSum F = ((F.drop 1).take 7).sum :=
  List.sum_eq_foldl.symm

theorem checksumOfSum_eq_neg (s : Byte) : checksumOfSum s = -s := by
  unfold checksumOfSum add8 sub8
  bv_omega

/-- The law of R91 before it is read as numbers. -/
theorem checksum_eq_neg_sum (F : List Byte) : checksum F = -((F.drop 1).take 7).sum := by
  rw [checksum, checksumOfSum_eq_neg, checksumSum_eq_sum]

/-- Byte 0 is no part of the sum (R90). -/
theorem checksum_set_zero (F : List Byte) (b : Byte) : checksum (F.set 0 b) = checksum F := by
  rw [checksum_eq_neg_sum, checksum_eq_neg_sum, List.drop_set_of_lt Nat.zero_lt_one]

/-- Bytes from 8 on are no part of the sum (R90). -/
theorem checksum_take_eight (F : List Byte) : checksum (F.take 8) = checksum F := by
  rw [checksum_eq_neg_sum, checksum_eq_neg_sum, List.drop_take, List.take_take]
  rfl

theorem checksum_set_eight (F : List Byte) (c : Byte) : checksum (F.set 8 c) = checksum F := by
  rw [← checksum_take_eight, List.take_set_of_le (le_refl 8), checksum_take_eight]

/-- A nine-byte frame matches exactly when its bytes 1 to 8 sum to zero (R91 (a)). -/
theorem matches_iff_tail_sum {G : List Byte} (h : G.length = 9) : G[8]! = checksum G ↔ (G.drop 1).sum = 0 := by
  have hlast : G.drop 8 = [G[8]!] := by
    rw [List.drop_eq_getElem_cons (by omega), List.drop_eq_nil_of_le (by omega), getElem!_pos G 8 (by omega)]
  have htail : (G.drop 1).sum = ((G.drop 1).take 7).sum + G[8]! := by
    rw [← List.sum_take_add_sum_drop (G.drop 1) 7, List.drop_drop, hlast, List.sum_singleton]
  rw [htail, checksum_eq_neg_sum, eq_neg_iff_add_eq_zero, add_comm]

/-- Settles O6: the law of R91, and its consequences by what a replaced byte does to the sum behind byte 0. -/
theorem checksumSumToZero : Obligations.ChecksumSumToZero := by
  refine ⟨fun B _ => ?_, fun G hG => ⟨?_, ?_, fun hm j b h1 h8 hb => ?_, fun hm j k d h1 hjk h8 => ?_, checksum_set_zero G⟩⟩
  · have hsum : ((B.drop 1).take 7 ++ [checksum B]).sum = 0 := by simp [checksum_eq_neg_sum]
    simpa using (sum_bytes_eq_zero_iff _).1 hsum
  · rw [matches_iff_tail_sum hG, sum_bytes_eq_zero_iff]
  · simp only [checksum_set_eight]
    exact existsUnique_eq
  · rw [matches_iff_tail_sum hG] at hm
    rw [Ne, matches_iff_tail_sum (by simpa using hG), tail_sum_set h1 (by omega), hm, zero_add, sub_eq_zero]
    exact hb
  · rw [matches_iff_tail_sum hG] at hm
    have hk : (G.set j (G[j]! + d))[k]! = G[k]! := by simp [List.getElem?_set_ne hjk.ne]
    rw [matches_iff_tail_sum (by simpa using hG), tail_sum_set (by omega) (by rw [List.length_set]; omega),
      tail_sum_set h1 (by omega), hm, hk, zero_add, add_sub_cancel_left, sub_sub_cancel_left, add_neg_cancel]

/-- The seven bytes that are summed, by their places (R90). -/
theorem summed_bytes {F : List Byte} (h : 8 ≤ F.length) :
    (F.drop 1).take 7 = [F[1]!, F[2]!, F[3]!, F[4]!, F[5]!, F[6]!, F[7]!] := by
  rcases F with _ | ⟨b0, _ | ⟨b1, _ | ⟨b2, _ | ⟨b3, _ | ⟨b4, _ | ⟨b5, _ | ⟨b6, _ | ⟨b7, F⟩⟩⟩⟩⟩⟩⟩⟩
  case cons => rfl
  all_goals simp at h

/-- The only nonzero byte that is its own negative (R90 (d)). -/
theorem neg_eq_self_iff : ∀ s : Byte, s ≠ 0 → (-s = s ↔ s = 0x80) := by decide

/-- Settles O7: each closed form is the negative of the sum. -/
theorem checksumClosedForms : Obligations.ChecksumClosedForms := by
  refine ⟨fun F hF => ?_, by decide⟩
  intro s
  have hsum : ((F.drop 1).take 7).sum = s := by
    simp only [summed_bytes hF, List.sum_cons, List.sum_nil, add_zero, add_assoc, s]
  have hneg : checksum F = -s := by rw [checksum_eq_neg_sum, hsum]
  rw [← toNat_sum_bytes, hsum, hneg]
  refine ⟨(checksumOfSum_eq_neg s).symm, (zero_sub s).symm, BitVec.neg_eq_not_add s, BitVec.toNat_neg s, fun h => ?_,
    fun h => ?_, fun h => ?_, neg_eq_self_iff s, fun b => ?_, ?_⟩
  · rw [h]; decide
  · rw [h]; decide
  · rw [h]; decide
  · rw [checksum_set_zero, hneg]
  · rw [checksum_take_eight, hneg]

/-! ### The exchanges of the wire frames (O8, O11) -/

/-- The exec of a wire frame in IDLE begins its exchange (R92). -/
theorem exec_wireRow_idle {s : State} {i : Instr} {f : CmdFrame} {e : Bool} (hi : wireRow s.params i = some (f, e))
    (hp : s.phase = .idle) : exec i s = .next (startExchange f e s) := by
  rw [exec_wireRow hi, sendCommand, if_neg]
  simp [underWay, hp, exchanging]

/-- Settles O8: each of the seven rows begins an exchange that expects no response, and it runs to its return. -/
theorem wireCommandFramesComplete : Obligations.WireCommandFramesComplete := by
  intro s hp hq hf
  have completes {i : Instr} {f : CmdFrame} (hi : wireRow s.params i = some (f, false)) :=
    And.intro (exec_wireRow_idle hi hp) (reaches_sent f hq hf)
  exact ⟨completes rfl, completes rfl, completes rfl, completes rfl, completes rfl, completes rfl, completes rfl⟩

/-- The exec of a wire frame begins its exchange, or is a step of it (R92). -/
theorem exec_wireRow_cases {s t : State} {i : Instr} {f : CmdFrame} {e : Bool} (hi : wireRow s.params i = some (f, e))
    (h : exec i s = .next t) :
    t = startExchange f e s ∨ (s.cmd = some f ∧ s.expect = some e ∧ ExchangeTo f e s t) := by
  rw [exec_wireRow hi, sendCommand] at h
  split at h
  · next hu =>
    simp only [underWay, Bool.and_eq_true, beq_iff_eq] at hu
    obtain ⟨⟨⟨hx, hc⟩, he⟩, -⟩ := hu
    exact .inr ⟨hc, he, exchangeStep_next hx h⟩
  · cases h
    exact .inl rfl

/-- Only the read writes RSP, and only there does the transport decide (R97, R98). -/
theorem exchangeTo_before_read {f : CmdFrame} {e : Bool} {s t : State} (h : ExchangeTo f e s t) (hp : s.phase ≠ .rxWait) :
    t.rsp = s.rsp ∧ t.draws = s.draws ∧ t.giveUp = s.giveUp := by
  cases h with
  | answered r q hw | failed hw => exact absurd hw hp
  | _ => exact ⟨rfl, rfl, rfl⟩

/-- Settles O11: the beginning of an exchange and a step of it leave the same registers alone. -/
theorem exchangeLeavesTheRest : Obligations.ExchangeLeavesTheRest := by
  intro s t i f e hi h
  rcases exec_wireRow_cases hi h with rfl | ⟨hc, he, hx⟩
  · simp [SameOutputs]
  · obtain ⟨as, ho⟩ := hx.only
    obtain ⟨hop, hcmd, hexpect, hrange, hboot, hcfg, hparams, hnow, hwire, hagenda, hstalls, hfloods, hout⟩ := ho.regs
    exact ⟨hout, hboot, hcfg, hparams, hop, hrange, hnow, hwire, hagenda, hstalls, hfloods, hcmd.trans hc, hexpect.trans he,
      exchangeTo_before_read hx⟩

/-! ### A flooded drain (O44) -/

theorem waits_drain {s : State} (hp : s.phase = .drain) : waits s = false := by simp [waits, hp]

theorem not_stuck_drain {s : State} (hp : s.phase = .drain) : ¬Stuck s := fun h => by simp [Stuck, waits_drain hp] at h

/-- While nothing interferes, a drain takes the oldest byte (R93). -/
theorem step_drain_pops {s : State} {f : CmdFrame} {e : Bool} {b : Byte} {q : List Byte} (hq : Quiet s)
    (hp : s.phase = .drain) (hr : s.ret = none) (hc : s.cmd = some f) (he : s.expect = some e) (hb : s.rxq = b :: q) :
    step s = .next (popByte b q s) := by
  rw [step_quiet hq (by simp [hp]) (waits_drain hp) (by simp [owedMove, hp, hb]),
    resume_exchange (by simp [hp, exchanging]) hr hc he]
  simp [exchangeStep, hp, drainStep, hb]

/-- Settles O44: the drain pops the byte, and the flood owes it the next (R93 (c), log entry 23). -/
theorem floodedDrainNeverEnds : Obligations.FloodedDrainNeverEnds := by
  intro s f e b hp hr hc he hf ha hb
  refine ⟨not_stuck_drain hp, ?_⟩
  rw [step_drain_pops (.inl ha) hp hr hc he hb]
  refine ⟨rfl, not_stuck_drain hp, ?_⟩
  have howed : owedMove (popByte b [] s) = some (.rx [b]) := by simp [owedMove, hp, hf, hr]
  rw [step_owed (s := popByte b [] s) (.inl ha) (by simp [hp]) (waits_drain hp) howed]
  simp [envMove, popByte, ← hb]

/-! ### SendCommand has returned (O54) -/

/-- Once SendCommand has returned the environment owes nothing. -/
theorem owedMove_returned {s : State} (hr : s.ret ≠ none) : owedMove s = none := by
  unfold owedMove
  split
  · simp [hr]
  · split <;> simp [hr]
  · rfl

/-- Once SendCommand has returned, the machine's own step is its caller's (R92). -/
theorem step_own_returned {s s1 : State} {x : SendResult} (ho : OwnStep s s1) (hp : s.phase ≠ .idle) (hr : s.ret = some x) :
    step s = .next (returned x s1) := by
  obtain ⟨rest, rfl⟩ := ownStep_same ho
  rw [step_own ho, owedMove_returned (by simp [hr])]
  simp [hp, resume, hr]

theorem returned_tick {s : State} (h : s.op = some .tick) (x : SendResult) : returned x s = tickReturned x s := by
  simp [returned, h]

theorem returned_boot {s : State} (h : s.op = some .boot) (x : SendResult) : returned x s = bootRange s := by
  simp [returned, h]

theorem returned_command {s : State} (ht : s.op ≠ some .tick) (hb : s.op ≠ some .boot) (x : SendResult) :
    returned x s = finish s := by
  unfold returned
  split
  · exact absurd ‹_› ht
  · exact absurd ‹_› hb
  · rfl

theorem bootRange_done {s : State} (h : s.rangeLeft = false) : bootRange s = bootEnd s := by simp [bootRange, h]

theorem bootRange_default {s : State} (h : rangeFrame s.params s.cfg.range = none) : bootRange s = bootEnd s := by
  simp [bootRange, h]

theorem bootRange_sends {s : State} {f : CmdFrame} (hl : s.rangeLeft = true)
    (hf : rangeFrame s.params s.cfg.range = some f) :
    bootRange s = startExchange f false { s with rangeLeft := false } := by
  simp [bootRange, hl, hf]

/-- Settles O54: the cases of `returned` and, for BOOT, of its range part. -/
theorem returnedExchangeGoesOn : Obligations.ReturnedExchangeGoesOn := by
  intro s s1 x ho hp hr
  obtain ⟨rest, hs⟩ := ownStep_same ho
  have hop : s.op = s1.op := by rw [hs]
  have hleft : s.rangeLeft = s1.rangeLeft := by rw [hs]
  have hparams : s.params = s1.params := by rw [hs]
  have hcfg : s.cfg = s1.cfg := by rw [hs]
  rw [step_own_returned ho hp hr, hop, hleft, hparams, hcfg]
  refine ⟨fun h hx => ?_, fun h hx => ?_, fun h hl => ?_, fun h _ hf => ?_, fun f h hl hf => ?_, fun ht hb => ?_⟩
  · rw [returned_tick h, hx]; rfl
  · rw [returned_tick h, hx]; rfl
  · rw [returned_boot h, bootRange_done hl]; rfl
  · rw [returned_boot h, bootRange_default hf]; rfl
  · rw [returned_boot h, bootRange_sends hl hf]
  · rw [returned_command ht hb]

end Sys2Proof.Proofs

/-!
The statements of the family 41_poll_cycle: a TICK as a whole (O15, O18, O19, O21), how it ends under the invariants (O22, O23), and
that it does not depend on the ticks before it (O25).
-/

namespace Sys2Proof.Proofs

open Sys2Proof Sys2Proof.Machine

/-! ### The validator and the gate (O15, O18) -/

/-- The validator on a wrong preamble looks no further (R113). -/
theorem checkPreamble_wrong {r : RspFrame} (h : r.hasPreamble = false) (s : State) :
    checkPreamble r s = warn .preamble s := by
  simp [checkPreamble, h]

/-- The validator on a known preamble and a wrong checksum records both values (R114). -/
theorem checkPreamble_mismatch {r : RspFrame} (hp : r.hasPreamble = true) (hc : checksumMatches r = false) (s : State) :
    checkPreamble r s = warn .checksum { s with csCalc := some (checksum (rspBytes r)), csRecv := some r.cks } := by
  simp only [checkPreamble, hp, checkSum, hc]
  rfl

/-- Settles O15: the first of the validator's three ways. -/
theorem responseWrongPreamble : Obligations.ResponseWrongPreamble := by
  intro s r h
  have hpre : r.hasPreamble = false := by simpa [RspFrame.hasPreamble, imp_iff_not_or] using h
  rw [exec, execRspGetReading, checkPreamble_wrong hpre]
  rfl

/-- TICK in a state that takes it is its gate (R110, R111). -/
theorem exec_tick_ready {s : State} (h : ready s = true) :
    exec .tick s = tickGate { beginOp .tick s with phase := .gate } := by
  simp [exec, execTick, h]

/-- Settles O18: the gate finds the window open. -/
theorem tickInWarmup : Obligations.TickInWarmup := by
  intro s hr hnow hwin hw
  rw [exec_tick_ready hr, tickGate, if_pos (by simp [clockInRange, hnow, hwin]), if_pos (by simp [inWarmup, hw])]
  rfl

/-! ### A TICK that is answered (O19, O21) -/

/-- Settles O19: the exchange begins, and the validator goes on to LATCH. -/
theorem tickPublishes : Obligations.TickPublishes := by
  intro s r rest hr hq hf hc hw hreply ha
  refine ⟨exec_tick_sends hr hc hw, ?_⟩
  have hrun := tick_reaches_validated hq hf hreply
  rwa [checkPreamble_accepted ha, latch_eq] at hrun

/-- Settles O21: the exchange begins, and the validator warns. -/
theorem tickRejects : Obligations.TickRejects := by
  intro s r rest hr hq hf hc hw hreply
  have hrun := tick_reaches_validated hq hf hreply
  refine ⟨exec_tick_sends hr hc hw, fun hpre => ?_, fun hpre hsum => ?_⟩
  · rwa [checkPreamble_wrong hpre] at hrun
  · rwa [checkPreamble_mismatch hpre hsum] at hrun

/-! ### How a TICK ends (O22) -/

/-- Only get reading expects a response (R16). -/
theorem wireRow_expects {p : Params} {i : Instr} {f : CmdFrame} (h : wireRow p i = some (f, true)) :
    f = getReadingFrame := by
  cases i <;> simp [wireRow] at h
  exact h.symm

theorem sequencerInv_tick_busy {s : State} (hi : SequencerInv s) (ho : s.op = some .tick) : s.phase ≠ .idle := by
  intro hp
  obtain ⟨hn, -⟩ := (phaseShape_idle hp).1 hi.shape
  cases hn.symm.trans ho

/-- The frame of a TICK is get reading (R112). -/
theorem sequencerInv_tick_cmd {s : State} (hi : SequencerInv s) (ho : s.op = some .tick) : s.cmd = some getReadingFrame := by
  obtain ⟨i, f, e, hrow, hc, -, -, ht⟩ := sequencerInv_inExchange hi (sequencerInv_tick_busy hi ho)
  obtain rfl := ht.2 ho
  rw [hc, wireRow_expects hrow]

/-- A TICK in progress ends in the framer's own step, when its read has failed or its response is validated. -/
theorem tick_ends {s t : State} (hi : SequencerInv s) (ho : s.op = some .tick) (h : step s = .next t) (ht : t.phase = .idle)
    (hr : ¬ResetTaken s) :
    ∃ rest, (s.ret = some .fail ∧ t = warn .transport { s with agenda := rest }) ∨
      ∃ r, s.phase = .chkPre ∧ s.rsp = some r ∧ t = checkPreamble r { s with agenda := rest } := by
  have hp := sequencerInv_tick_busy hi ho
  obtain ⟨hgate, hsum, hlatch⟩ := sequencerInv_passed hi
  cases step_next h with
  | env m rest => exact absurd ((envMove_only m _).regs.1.symm.trans ht) hp
  | owed m s1 hown =>
    obtain ⟨rest, rfl⟩ := ownStep_same hown
    exact absurd ((envMove_only m _).regs.1.symm.trans ht) hp
  | reset rest hm => exact absurd ⟨rest, hm⟩ hr
  | config _ _ _ hq | requested _ _ _ _ _ _ hq | rests _ _ hq => exact absurd hq hp
  | dropped => exact absurd ht hp
  | goes s1 t hown _ _ hx =>
    obtain ⟨rest, rfl⟩ := ownStep_same hown
    refine ⟨rest, ?_⟩
    cases hx with
    | tickFails hf => exact .inl ⟨hf, rfl⟩
    | validates r _ hq hs => exact .inr ⟨r, hq, hs, rfl⟩
    | tickReads | bootSends => cases ht
    | bootEnds _ _ hb => cases ho.symm.trans hb
    | commandEnds _ _ hn => exact absurd ho hn
    | gate _ hq => exact absurd hq hgate
    | sums _ hq => exact absurd hq hsum
    | latches _ hq => exact absurd hq hlatch
    | exchanges f e t _ _ _ _ hk =>
      obtain ⟨as, hk⟩ := hk.only
      have hb := hk.busy
      rw [ht] at hb
      cases hb

/-- The record when a TICK's read has failed (R53). -/
theorem inOrder_tick_failed {s : State} (hi : SequencerInv s) (hs : InOrder s) (ho : s.op = some .tick)
    (hr : s.ret = some .fail) :
    ∃ (whole : List (List Act)) (ps bs : List Byte), (∀ as ∈ whole, WholeExchange s.params as) ∧
      s.acts = whole.flatten ++ exchangeActs getReadingFrame ps ++ [.readFail bs] := by
  obtain ⟨⟨whole, part, hall, hacts, hd⟩, -, -⟩ := hs
  simp only [DoneSoFar, sequencerInv_tick_returned hi hr ho, sequencerInv_tick_cmd hi ho, hr] at hd
  obtain ⟨f, hc, ps, ⟨hn, -⟩ | ⟨hn, -⟩ | ⟨-, bs, rfl⟩⟩ := hd
  · cases hn
  · cases hn
  · cases hc
    exact ⟨whole, ps, bs, hall, by rw [hacts, List.append_assoc]⟩

/-- The record when a TICK's response is validated (R53). -/
theorem inOrder_tick_answered {s : State} {r : RspFrame} (hi : SequencerInv s) (hs : InOrder s) (ho : s.op = some .tick)
    (hp : s.phase = .chkPre) (hr : s.rsp = some r) :
    ∃ (whole : List (List Act)) (ps : List Byte), (∀ as ∈ whole, WholeExchange s.params as) ∧
      s.acts = whole.flatten ++ exchangeActs getReadingFrame ps ++ [.readOk r] := by
  obtain ⟨⟨whole, part, hall, hacts, hd⟩, -, -⟩ := hs
  simp only [DoneSoFar, hp, sequencerInv_tick_cmd hi ho, hr] at hd
  obtain ⟨f, r', hc, hr', ps, rfl⟩ := hd
  cases hc
  cases hr'
  exact ⟨whole, ps, hall, by rw [hacts, List.append_assoc]⟩

/-- Settles O22: in its first step by the gate alone; later by `tick_ends`, the validator ending it in one of three ways. -/
theorem tickEndsOneWay : Obligations.TickEndsOneWay := by
  refine ⟨fun s t hr h ht => ?_, fun s t hi hs ho h ht hr => ?_⟩
  · rw [exec_tick_ready hr] at h
    rcases tickGate_next h with rfl | rfl
    · exact ⟨rfl, rfl, rfl⟩
    · cases ht
  obtain ⟨rest, ⟨hf, rfl⟩ | ⟨r, hp, hrsp, rfl⟩⟩ := tick_ends hi ho h ht hr
  · obtain ⟨whole, ps, bs, hall, hacts⟩ := inOrder_tick_failed hi hs ho hf
    exact ⟨whole, ps, _, hall, hacts, rfl, bs, rfl⟩
  obtain ⟨whole, ps, hall, hacts⟩ := inOrder_tick_answered hi hs ho hp hrsp
  refine ⟨whole, ps, .readOk r, hall, by rw [checkPreamble_only]; exact hacts, ?_⟩
  rcases checkPreamble_cases r { s with agenda := rest } with ⟨hpre, ht⟩ | ⟨hpre, hsum, ht⟩ | ⟨hpre, hsum, ht⟩
  · rw [ht]
    exact ⟨rfl, r, rfl, hpre⟩
  · rw [ht]
    exact ⟨rfl, r, rfl, hpre, hsum, rfl, rfl⟩
  · rw [ht, latch_eq]
    exact ⟨rfl, r, rfl, by simp [accepted, hpre, hsum], rfl, rfl, rfl, rfl⟩

/-- Settles O23: a TICK taken in its window, or whose read failed, writes the flag alone; the validator adds CS_CALC and CS_RECV on
CHECKSUM, and the outputs only when it clears the flag. -/
theorem failedTickKeepsOutputs : Obligations.FailedTickKeepsOutputs := by
  intro s t hi h hr hfail
  cases step_outputs hi h with
  | resets rest k => exact absurd k hr
  | keeps _ hk =>
    obtain ⟨-, -, hco2, htemp, hstatus, hcalc, hrecv, hpubs⟩ := hk
    exact ⟨hco2, htemp, hstatus, hpubs, fun _ => ⟨hcalc, hrecv⟩⟩
  | warms | fails => exact ⟨rfl, rfl, rfl, rfl, fun _ => ⟨rfl, rfl⟩⟩
  | validates r rest ho =>
    rcases checkPreamble_cases r { s with agenda := rest } with ⟨-, ht⟩ | ⟨-, -, ht⟩ | ⟨-, -, ht⟩ <;> rw [ht] at hfail ⊢
    · exact ⟨rfl, rfl, rfl, rfl, fun _ => ⟨rfl, rfl⟩⟩
    · exact ⟨rfl, rfl, rfl, rfl, fun hn => absurd ⟨ho, rfl, rfl⟩ hn⟩
    · simp [latch_eq] at hfail

/-! ### A TICK and the ticks before it (O25) -/

/-- Two runs of a TICK make steps alike, from `s` to `t` and from `s'` to `t'`: the same primitives, the same surroundings, and both
end alike or go on from the same point (R118). -/
def Alike (s s' t t' : State) : Prop :=
  (∃ as, t.acts = s.acts ++ as ∧ t'.acts = s'.acts ++ as) ∧ SameSurroundings t t' ∧
    ((t.phase = .idle ∧ t'.phase = .idle ∧ EndsAlike s s' t t') ∨ (t.phase ≠ .idle ∧ t.op = some .tick ∧ SamePoint t t'))

/-- The outcomes of two steps of a TICK are alike. -/
inductive OutcomesAlike (s s' : State) : (o o' : Host.Outcome State Fault Refusal) → Prop
  | next {t t' : State} (h : Alike s s' t t') : OutcomesAlike s s' (.next t) (.next t')
  | fault (r : Fault) : OutcomesAlike s s' (.fault r) (.fault r)
  | refused (r : Refusal) : OutcomesAlike s s' (.refused r) (.refused r)

/-- The point of `s`, with the outputs, BOOT_DONE and the records of another past, that of `o`. -/
def withPast (o s : State) : State :=
  { s with
    bootDone := o.bootDone, warning := o.warning, wcause := o.wcause, co2 := o.co2, temp := o.temp, status := o.status,
    csCalc := o.csCalc, csRecv := o.csRecv, pubs := o.pubs, acts := o.acts }

@[simp] theorem withPast_phase (o s : State) : (withPast o s).phase = s.phase := rfl
@[simp] theorem withPast_op (o s : State) : (withPast o s).op = s.op := rfl
@[simp] theorem withPast_cmd (o s : State) : (withPast o s).cmd = s.cmd := rfl
@[simp] theorem withPast_rsp (o s : State) : (withPast o s).rsp = s.rsp := rfl
@[simp] theorem withPast_csum (o s : State) : (withPast o s).csum = s.csum := rfl
@[simp] theorem withPast_bcnt (o s : State) : (withPast o s).bcnt = s.bcnt := rfl
@[simp] theorem withPast_expect (o s : State) : (withPast o s).expect = s.expect := rfl
@[simp] theorem withPast_ret (o s : State) : (withPast o s).ret = s.ret := rfl
@[simp] theorem withPast_rxq (o s : State) : (withPast o s).rxq = s.rxq := rfl
@[simp] theorem withPast_txPending (o s : State) : (withPast o s).txPending = s.txPending := rfl

/-- States at the same point are those that differ in their past alone. -/
theorem samePoint_iff {s s' : State} : SamePoint s s' ↔ s' = withPast s' s := by
  cases s
  cases s'
  simp only [SamePoint, SameSurroundings, withPast, State.mk.injEq, true_and, and_true]
  tauto

theorem samePoint_withPast (o s : State) : SamePoint s (withPast o s) := samePoint_iff.2 rfl

/-- A step that performs `as` in both runs and goes on from the same point. -/
theorem alike_goes_on {s s' t t' : State} (as : List Act) (ha : t.acts = s.acts ++ as) (ha' : t'.acts = s'.acts ++ as)
    (h : t' = withPast t' t) (hp : t.phase ≠ .idle) (ho : t.op = some .tick) : Alike s s' t t' := by
  have hsame := samePoint_iff.2 h
  exact ⟨⟨as, ha, ha'⟩, hsame.1, .inr ⟨hp, ho, hsame⟩⟩

/-- A step without a primitive that goes on from the same point. -/
theorem alike_goes_on_silent {s s' t t' : State} (ha : t.acts = s.acts) (ha' : t'.acts = s'.acts) (h : t' = withPast t' t)
    (hp : t.phase ≠ .idle) (ho : t.op = some .tick) : Alike s s' t t' :=
  alike_goes_on [] (by simp [ha]) (by simp [ha']) h hp ho

/-- A tick ends without a primitive. -/
theorem alike_ends {s s' t t' : State} (ha : t.acts = s.acts) (ha' : t'.acts = s'.acts) (h : SameSurroundings t t')
    (hp : t.phase = .idle) (hp' : t'.phase = .idle) (he : EndsAlike s s' t t') : Alike s s' t t' :=
  ⟨⟨[], by simp [ha], by simp [ha']⟩, h, .inl ⟨hp, hp', he⟩⟩

/-! #### The operations of a TICK -/

/-- The warnings that record no value end two ticks alike. -/
theorem warn_alike {s s' : State} {c : Cause} (h : SameSurroundings s s') (h1 : c ≠ .none) (h2 : c ≠ .checksum) :
    Alike s s' (warn c s) (warn c s') :=
  alike_ends rfl rfl h rfl rfl ⟨rfl, rfl, (absurd · h1), (absurd · h2)⟩

/-- LATCH writes values of the response alone, and the sinks are part of the surroundings (R115, R116). -/
theorem latch_alike (r : RspFrame) {s s' : State} (h : SameSurroundings s s') : Alike s s' (latch r s) (latch r s') := by
  have hcfg : s'.cfg = s.cfg := h.1
  rw [latch_eq, latch_eq, hcfg]
  refine alike_ends rfl rfl ?_ rfl rfl ⟨rfl, rfl, fun _ => ⟨rfl, fun hen => ?_, fun hen => ?_, _, List.append_assoc _ _ _,
    List.append_assoc _ _ _⟩, nofun⟩
  · exact h
  · simp [hen]
  · simp [hen]

theorem checkSum_alike (r : RspFrame) {s s' : State} (h : SameSurroundings s s') :
    Alike s s' (checkSum r s) (checkSum r s') := by
  unfold checkSum
  split
  · exact latch_alike r (s := { s with phase := .latch }) (s' := { s' with phase := .latch }) h
  · exact alike_ends rfl rfl h rfl rfl ⟨rfl, rfl, nofun, fun _ => ⟨rfl, rfl⟩⟩

theorem checkPreamble_alike (r : RspFrame) {s s' : State} (h : SameSurroundings s s') :
    Alike s s' (checkPreamble r s) (checkPreamble r s') := by
  unfold checkPreamble
  split
  · exact checkSum_alike r (s := { s with phase := .chkSum }) (s' := { s' with phase := .chkSum }) h
  · exact warn_alike h nofun nofun

section

variable {o s : State} (ho : s.op = some .tick)
include ho

/-- The clock and the window are part of the surroundings (R111). -/
theorem tickGate_alike : OutcomesAlike s (withPast o s) (tickGate s) (tickGate (withPast o s)) := by
  have hclock : clockInRange (withPast o s) = clockInRange s := rfl
  have hwarm : inWarmup (withPast o s) = inWarmup s := rfl
  simp only [tickGate, hclock, hwarm]
  split_ifs
  · exact .next (warn_alike (samePoint_withPast o s).1 nofun nofun)
  · exact .next (alike_goes_on_silent rfl rfl rfl nofun ho)
  · exact .refused _

theorem tickReturned_alike (x : SendResult) :
    Alike s (withPast o s) (tickReturned x s) (tickReturned x (withPast o s)) := by
  cases x with
  | ok => exact alike_goes_on_silent rfl rfl rfl nofun ho
  | fail => exact warn_alike (samePoint_withPast o s).1 nofun nofun

theorem envMove_alike (m : EnvMove) (hp : s.phase ≠ .idle) :
    Alike s (withPast o s) (envMove m s) (envMove m (withPast o s)) := by
  obtain ⟨hphase, hop, -⟩ := (envMove_only m s).regs
  refine alike_goes_on_silent (envMove_acts m _) (envMove_acts m _) ?_ (hphase ▸ hp) (hop.trans ho)
  cases m with
  | sent =>
    simp only [envMove, withPast_txPending]
    split <;> rfl
  | _ => rfl

/-! #### The steps of its exchange -/

theorem drainStep_alike (hp : s.phase = .drain) :
    Alike s (withPast o s) (drainStep s) (drainStep (withPast o s)) := by
  simp only [drainStep, withPast_rxq]
  split
  · next b q _ => exact alike_goes_on [.pop b] rfl rfl rfl (by simp [hp]) ho
  · exact alike_goes_on_silent rfl rfl rfl nofun ho

theorem txStep_alike (f : CmdFrame) (i : BitVec 4) (c : Byte) (hp : s.phase = .tx) :
    Alike s (withPast o s) (txStep f i c s) (txStep f i c (withPast o s)) := by
  simp only [txStep]
  split
  · next b _ => exact alike_goes_on [.push b] rfl rfl rfl (by simp [hp]) ho
  · exact alike_goes_on [.push (checksumOfSum c)] rfl rfl rfl nofun ho

theorem flushStep_alike (e : Bool) (hp : s.phase = .flush) :
    Alike s (withPast o s) (flushStep e s) (flushStep e (withPast o s)) := by
  simp only [flushStep, withPast_txPending]
  split_ifs
  · exact alike_goes_on [.flush] rfl rfl rfl nofun ho
  · exact alike_goes_on [.flush] rfl rfl rfl (by simp [hp]) ho
  · exact alike_goes_on_silent rfl rfl rfl (by simp [hp]) ho

/-- The transport and its draws are part of the surroundings (R45; log entries 9, 20). -/
theorem readStep_alike (hp : s.phase = .rxWait) :
    Alike s (withPast o s) (readStep s) (readStep (withPast o s)) := by
  have hwaits : readWaits (withPast o s) = readWaits s := rfl
  simp only [readStep, withPast_rxq, hwaits]
  split
  · next r q _ => exact alike_goes_on [.readOk r] rfl rfl rfl (by simp [hp]) ho
  · split
    · exact alike_goes_on_silent rfl rfl rfl (by simp [hp]) ho
    · exact alike_goes_on [.readFail (s.rxq.take (failedReadCount s))] rfl rfl rfl (by simp [hp]) ho

theorem exchangeStep_alike (f : CmdFrame) (e : Bool) (hx : exchanging s.phase = true) :
    OutcomesAlike s (withPast o s) (exchangeStep f e s) (exchangeStep f e (withPast o s)) := by
  simp only [exchangeStep, withPast_phase, withPast_bcnt, withPast_csum]
  split
  · exact .next (drainStep_alike ho ‹_›)
  · split
    · exact .next (txStep_alike ho f _ _ ‹_›)
    · exact .fault _
    · exact .fault _
  · exact .next (flushStep_alike ho e ‹_›)
  · exact .next (readStep_alike ho ‹_›)
  · rcases hp : s.phase <;> simp_all [exchanging]

/-! #### The step -/

theorem resume_alike (hp : s.phase ≠ .idle) :
    OutcomesAlike s (withPast o s) (resume s) (resume (withPast o s)) := by
  have hsame : SameSurroundings s (withPast o s) := (samePoint_withPast o s).1
  simp only [resume, returned, withPast_ret, withPast_phase, withPast_op, withPast_rsp, withPast_cmd, withPast_expect, ho]
  split
  · exact .next (tickReturned_alike ho _)
  · split
    · exact absurd ‹_› hp
    · exact tickGate_alike ho
    · split
      · exact .next (checkPreamble_alike _ hsame)
      · exact .fault _
    · split
      · exact .next (checkSum_alike _ hsame)
      · exact .fault _
    · split
      · exact .next (latch_alike _ hsame)
      · exact .fault _
    · split
      · exact exchangeStep_alike ho _ _ (by rcases hq : s.phase <;> simp_all [exchanging])
      · exact .fault _
      · exact .fault _

end

/-- Steps made from intermediate states are alike for the states they come from, when those have the same records and sinks. -/
theorem OutcomesAlike.mono {a a' s s' : State} {x x' : Host.Outcome State Fault Refusal} (h : OutcomesAlike a a' x x')
    (hs : ∀ {t t'}, Alike a a' t t' → Alike s s' t t') : OutcomesAlike s s' x x' := by
  cases h with
  | next h => exact .next (hs h)
  | fault r => exact .fault r
  | refused r => exact .refused r

theorem taken_withPast {s : State} {m : Move} {rest : List Event} (o : State) (h : Taken s m rest) :
    Taken (withPast o s) m rest := h

theorem ownStep_withPast {s s1 : State} (o : State) (h : OwnStep s s1) : OwnStep (withPast o s) (withPast o s1) := by
  rcases h with ⟨ha, rfl⟩ | ⟨rest, ha, rfl⟩ | ⟨m, rest, ha, hl, rfl⟩
  · exact .inl ⟨ha, rfl⟩
  · exact .inr (.inl ⟨rest, ha, rfl⟩)
  · exact .inr (.inr ⟨m, rest, ha, hl, rfl⟩)

/-- Two runs that stand at the same point of a TICK make their next steps alike. -/
theorem step_alike (o : State) {s : State} (hp : s.phase ≠ .idle) (ho : s.op = some .tick) (hr : ¬ResetTaken s) :
    OutcomesAlike s (withPast o s) (step s) (step (withPast o s)) := by
  rcases own_or_taken s with ⟨s1, hown⟩ | ⟨m, rest, hm⟩
  · obtain ⟨rest, rfl⟩ := ownStep_same hown
    have howed : owedMove (withPast o { s with agenda := rest }) = owedMove { s with agenda := rest } := rfl
    rw [step_own hown, step_own (ownStep_withPast o hown), howed]
    split
    · exact .next (envMove_alike (s := { s with agenda := rest }) ho _ hp)
    · rw [if_neg (by exact hp), if_neg (by exact hp)]
      exact (resume_alike (s := { s with agenda := rest }) ho hp).mono id
  · rw [step_taken hm, step_taken (taken_withPast o hm)]
    cases m with
    | env m => exact .next (envMove_alike (s := { s with agenda := rest }) ho m hp)
    | reset => exact absurd ⟨rest, hm⟩ hr
    | config c =>
      simp only [withPast_phase, hp, false_and, if_false]
      exact .refused _
    | request code range =>
      simp only [withPast_phase, hp, if_false]
      exact .next (alike_goes_on_silent rfl rfl rfl hp ho)

/-- A TICK stands at the same point when it is taken in the same surroundings: it overwrites every register it uses. -/
theorem exec_tick_alike {s s' : State} (hr : ready s = true) (hr' : ready s' = true) (h : SameSurroundings s s') :
    OutcomesAlike s s' (exec .tick s) (exec .tick s') := by
  have hpoint : SamePoint { beginOp .tick s with phase := .gate } { beginOp .tick s' with phase := .gate } :=
    ⟨h, rfl, rfl, rfl, rfl, rfl, rfl, rfl, rfl, rfl⟩
  rw [exec_tick_ready hr, exec_tick_ready hr', samePoint_iff.1 hpoint]
  exact (tickGate_alike rfl).mono id

/-- Settles O25: the two first steps and the two later ones are alike (`exec_tick_alike`, `step_alike`), and a TICK's first step
faults in no state. -/
theorem tickIgnoresEarlierTicks : Obligations.TickIgnoresEarlierTicks := by
  refine ⟨fun s s' hr hr' h => ?_, fun s s' hp ho h hr => ?_⟩
  · have hk := exec_tick_alike hr hr' h
    have hfault := exec_ne_fault (s := s) (i := .tick) rfl
    generalize exec .tick s = x at hk hfault ⊢
    generalize exec .tick s' = x' at hk ⊢
    cases hk with
    | next hk => exact hk
    | fault r => exact absurd rfl (hfault r)
    | refused r => rfl
  · have hk := step_alike s' hp ho hr
    rw [← samePoint_iff.1 h] at hk
    generalize step s = x at hk ⊢
    generalize step s' = x' at hk ⊢
    cases hk with
    | next hk => exact hk
    | fault r => rfl
    | refused r => rfl

end Sys2Proof.Proofs

/-!
The statements of the family 42_command_set: an on-demand command as a whole (O28), SET_RANGE default (O29), and BOOT as a whole
(O31). Each is an exchange that runs to its return (`reaches_sent`) and its caller's step after it (`step_returned`).
-/

namespace Sys2Proof.Proofs

open Sys2Proof Sys2Proof.Machine

/-! ### The on-demand commands (O28, O29) -/

/-- An on-demand command, once begun, runs to its end: when its exchange has returned, the operation is over (R130). -/
theorem reaches_commandEnd {o : Op} (f : CmdFrame) {s : State} (ht : o ≠ .tick) (hb : o ≠ .boot) (hq : Quiet s) (hf : Fair s) :
    Reaches (startExchange f false (beginOp o s)) (finish (exchanged f s)) := by
  refine reaches_trans (reaches_sent f (s := beginOp o s) hq hf) (reaches_one (step_returned hq nofun rfl ?_))
  exact returned_command (by simpa [exchanged, beginOp] using ht) (by simpa [exchanged, beginOp] using hb) _

/-- Settles O28: each of the seven commands begins its exchange (`command`), and it runs to its end (`reaches_commandEnd`). -/
theorem onDemandCommandsComplete : Obligations.OnDemandCommandsComplete := by
  intro s hr hq hf
  have completes {i : Instr} {o : Op} {f : CmdFrame} (hi : exec i s = .next (command o f s)) (ht : o ≠ .tick) (hb : o ≠ .boot) :
      exec i s = .next (startExchange f false (beginOp o s)) ∧
        Reaches (startExchange f false (beginOp o s)) (finish (exchanged f s)) :=
    ⟨by rw [hi, command, if_pos hr], reaches_commandEnd f ht hb hq hf⟩
  exact ⟨completes rfl nofun nofun, completes rfl nofun nofun, completes rfl nofun nofun, completes rfl nofun nofun,
    completes rfl nofun nofun, completes rfl nofun nofun, completes rfl nofun nofun⟩

/-- Settles O29: it is the definition of SET_RANGE default (R138). -/
theorem setRangeDefaultDoesNothing : Obligations.SetRangeDefaultDoesNothing := fun _ => rfl

/-! ### BOOT (O31) -/

/-- The end of BOOT once its ABC part is over: the range, if the parameter says so and RANGE is not default, has been sent (R140,
R141). -/
def bootCompleted (s : State) : State :=
  match s.params.bootSendsRange, rangeFrame s.params s.cfg.range with
  | true, some f => bootEnd (exchanged f s)
  | _, _ => bootEnd s

theorem bootCompleted_silent {s : State} (h : s.params.bootSendsRange = false) : bootCompleted s = bootEnd s := by
  simp [bootCompleted, h]

theorem bootCompleted_default {s : State} (h : rangeFrame s.params s.cfg.range = none) : bootCompleted s = bootEnd s := by
  simp [bootCompleted, h]

theorem bootCompleted_sends {s : State} {f : CmdFrame} (h : s.params.bootSendsRange = true)
    (hf : rangeFrame s.params s.cfg.range = some f) : bootCompleted s = bootEnd (exchanged f s) := by
  simp [bootCompleted, h, hf]

/-- The range part of BOOT runs to its end, whichever it is: nothing to send, or one exchange (R141). -/
theorem reaches_bootCompleted {s : State} (hq : Quiet s) (hf : Fair s) (ho : s.op = some .boot)
    (hl : s.rangeLeft = s.params.bootSendsRange) : Reaches (bootRange s) (bootCompleted s) := by
  cases hp : s.params.bootSendsRange with
  | false =>
    rw [bootRange_done (hl.trans hp), bootCompleted_silent hp]
    exact .here _
  | true =>
    cases hr : rangeFrame s.params s.cfg.range with
    | none =>
      rw [bootRange_default hr, bootCompleted_default hr]
      exact .here _
    | some f =>
      rw [bootRange_sends (hl.trans hp) hr, bootCompleted_sends hp hr]
      refine reaches_trans (reaches_sent f (s := { s with rangeLeft := false }) hq hf)
        (reaches_one (step_returned hq nofun rfl ?_))
      rw [returned_boot (by exact ho), bootRange_done rfl]
      rfl

/-- BOOT with an ABC command: when its exchange has returned, BOOT goes on with its range part (R140; log entry 30). -/
theorem reaches_bootCompleted_abc (f : CmdFrame) {s : State} (hq : Quiet s) (hf : Fair s) :
    Reaches (startExchange f false { beginOp .boot s with rangeLeft := s.params.bootSendsRange })
      (bootCompleted (exchanged f s)) := by
  refine reaches_trans (reaches_sent f (s := { beginOp .boot s with rangeLeft := s.params.bootSendsRange }) hq hf) ?_
  refine .next (step_returned hq nofun rfl (returned_boot rfl _)) ?_
  exact reaches_bootCompleted hq hf rfl rfl

/-- BOOT without an ABC command begins with its range part (R140). -/
theorem reaches_bootCompleted_unspecified {s : State} (hq : Quiet s) (hf : Fair s) :
    Reaches (bootRange { beginOp .boot s with rangeLeft := s.params.bootSendsRange }) (bootCompleted s) :=
  reaches_bootCompleted (s := { beginOp .boot s with rangeLeft := s.params.bootSendsRange }) hq hf rfl rfl

/-- Settles O31: the three policies of the ABC part; the range part after each is `bootCompleted`. -/
theorem bootComplete : Obligations.BootComplete := by
  intro s hb hq hf abc all
  have hall : { finish all with bootDone := true } = bootCompleted abc := by
    have hparams : abc.params = s.params := by unfold abc; split <;> rfl
    have hcfg : abc.cfg = s.cfg := by unfold abc; split <;> rfl
    unfold all
    rw [← hparams, ← hcfg]
    cases hp : abc.params.bootSendsRange with
    | false => rw [bootCompleted_silent hp]; rfl
    | true =>
      cases hr : abc.cfg.range with
      | default => rw [bootCompleted_default (by rw [hr]; rfl)]; rfl
      | r2000 | r5000 | r10000 => rw [bootCompleted_sends hp (by rw [hr]; rfl)]; rfl
  rw [hall, exec, execBoot, if_pos hb]
  unfold abc
  cases hpolicy : s.cfg.abcBoot with
  | unspecified => exact reaches_bootCompleted_unspecified hq hf
  | enabled | disabled => exact reaches_bootCompleted_abc _ hq hf

end Sys2Proof.Proofs

/-! ## TICK beyond the bounds of the clock (O26) -/

namespace Sys2Proof.Proofs

open Sys2Proof Sys2Proof.Machine

/-- The clock is out of range where NOW_MS or the warm-up window reaches 2 ^ CLOCK_BITS (R170, U6). -/
theorem clockInRange_eq_false_iff {s : State} :
    clockInRange s = false ↔
      2 ^ s.params.clockBits ≤ s.nowMs ∨ 2 ^ s.params.clockBits ≤ s.cfg.warmupS.toNat * 1000 := by
  simp [clockInRange, imp_iff_not_or]

/-- Out of the range of the clock the gate gives no next state (log entry 8). -/
theorem tickGate_refused {s : State} (h : clockInRange s = false) : tickGate s = .refused .clockOutOfRange := by
  simp [tickGate, h]

/-- Settles O26: TICK begins with its gate, and beginning it moves neither the clock nor the window. -/
theorem tickBeyondClockRefused : Obligations.TickBeyondClockRefused := by
  intro s hr hbeyond
  have hclock : clockInRange { beginOp .tick s with phase := .gate } = false := clockInRange_eq_false_iff.2 hbeyond
  rw [exec_tick_ready hr, tickGate_refused hclock]

end Sys2Proof.Proofs

/-! ## Where a run rests (O58) -/

namespace Sys2Proof.Proofs

open Sys2Proof Sys2Proof.Machine

/-- A move that the environment owes changes the state (R46, R93). -/
theorem envMove_owed_ne {s : State} {m : EnvMove} (h : owedMove s = some m) : envMove m s ≠ s := by
  unfold owedMove at h
  split at h
  · split at h
    · next hsend =>
      cases h
      obtain ⟨-, hpending, -⟩ := hsend
      obtain ⟨b, rest, ht⟩ := List.exists_cons_of_ne_nil hpending
      exact fun k => by simpa [envMove, ht] using congrArg State.wire k
    · cases h
  · split at h
    · split at h <;> cases h
      exact fun k => by simpa [envMove] using congrArg State.rxq k
    · cases h
  · cases h

/-- A step that performs a primitive changes the record of the primitives. -/
theorem ne_of_acts {s t : State} {a : Act} (h : t.acts = s.acts ++ [a]) : t ≠ s := by
  rintro rfl
  simp at h

/-- The only steps of an exchange that change nothing are the waits: for the line to empty, and for the response (R95, R97). -/
theorem exchangeTo_same {f : CmdFrame} {e : Bool} {s t : State} (h : ExchangeTo f e s t) (hs : t = s) :
    (s.phase = .flush ∧ s.txPending ≠ []) ∨ (s.phase = .rxWait ∧ s.rxq.length < 9 ∧ readWaits s = true) := by
  cases h with
  | flushWaits hp ht => exact .inl ⟨hp, ht⟩
  | readWaits hp hq hw => exact .inr ⟨hp, hq, hw⟩
  | drained hp => exact absurd (congrArg State.phase hs) (by simp [hp])
  | pops | pushes | pushesSum | flushed | reads | answered | failed => exact absurd hs (ne_of_acts rfl)

/-- Under the invariant the framer's own step of an operation in progress changes something, but for the step of an exchange. -/
theorem resumeTo_same {s t : State} (hi : SequencerInv s) (hp : s.phase ≠ .idle) (h : ResumeTo s t) (hs : t = s) :
    s.ret = none ∧ ∃ f e, ExchangeTo f e s t := by
  obtain ⟨hgate, hsum, hlatch⟩ := sequencerInv_passed hi
  cases h with
  | exchanges f e t hr _ _ _ h => exact ⟨hr, f, e, h⟩
  | tickFails | bootEnds | commandEnds => exact absurd (congrArg State.phase hs).symm hp
  | validates r =>
    rw [checkPreamble_only] at hs
    exact absurd (congrArg State.phase hs).symm hp
  | tickReads hr | bootSends _ _ hr => cases hr.symm.trans (congrArg State.ret hs).symm
  | gate _ hq => exact absurd hq hgate
  | sums _ hq => exact absurd hq hsum
  | latches _ hq => exact absurd hq hlatch

/-- An exchange that waits while the environment owes nothing has no step to take (R193). -/
theorem waits_of_exchangeTo_same {f : CmdFrame} {e : Bool} {s t : State} (hr : s.ret = none) (hm : owedMove s = none)
    (h : ExchangeTo f e s t) (hs : t = s) : waits s = true := by
  rcases exchangeTo_same h hs with ⟨hp, ht⟩ | ⟨hp, hq, hw⟩
  · have hstalls : s.stalls = true := by simpa [owedMove, hp, hr, ht] using hm
    simp [waits, hr, hp, hstalls, ht]
  · simp [waits, hr, hp, hq, hw]

/-- The framer waits in RXWAIT or in FLUSH alone (R193, R202). -/
theorem waits_phase {s : State} (h : waits s = true) : s.phase = .rxWait ∨ s.phase = .flush := by
  rcases hp : s.phase <;> simp [waits, hp] at h ⊢

/-- Settles O58: with nothing to come the step is the machine's own; what the environment owes moves something, and so does
the framer's own step unless it waits. -/
theorem restsOnlyWhenOverOrStuck : Obligations.RestsOnlyWhenOverOrStuck := by
  refine ⟨fun s hi ha h => ?_, fun s hi hs => ?_⟩
  · by_cases hp : s.phase = .idle
    · exact .inl ⟨ha, hp⟩
    rw [step_own (.inl ⟨ha, rfl⟩)] at h
    split at h
    · next hm => exact absurd (Host.Outcome.next.inj h) (envMove_owed_ne hm)
    · next hm =>
      rw [if_neg hp] at h
      obtain ⟨hr, f, e, hx⟩ := resumeTo_same hi hp (resume_next hp h) rfl
      exact .inr ⟨ha, waits_of_exchangeTo_same hr hm hx rfl⟩
  · have hphase := waits_phase hs.2
    obtain ⟨i, f, e, -, hc, he, -⟩ := sequencerInv_inExchange hi (by rcases hphase with hp | hp <;> simp [hp])
    exact ⟨hphase, step_stuck hs hc he⟩

end Sys2Proof.Proofs
